-- ==== Sys2Proof/Word.lean ====
section
/-! DEFINITION. The two packed widths of the block: the 32-bit word (Color word, peripheral word, command word: R90)
and the 8-bit byte (channel value, result code, label: R45, R94, R97). A word is a value, never a sequence of bytes (R65). -/

namespace Sys2Proof

/-- A 32-bit packed word (R91, R93, R95). -/
abbrev Word := BitVec 32

/-- An 8-bit value: a channel's "8-bit unsigned magnitude" (R21), a result code (R94), a label (R97). -/
abbrev Byte := BitVec 8

end Sys2Proof
end

