-- ==== Sys2Proof/Config.lean ====
section
/-! DEFINITION. The configuration CFG of 00_scope.md R8: the thirteen open parameters, and the four the spec fixes. It is fixed
before reset is released and never changes (R8, R302). Which configurations are admitted is `Config.admitted`
(Machine/Timing.lean, R215). -/

namespace Sys2Proof

/-- CFG (R8). Every field is OPEN: a model argument. DESIGN CHOICE (log 1): the argument stands in State as a field no step
writes, so a claim over every State is a claim over every configuration. Safe. -/
structure Config where
  /-- N, the configured strip size, the number of LEDs. -/
  n : Nat
  /-- CH, channels per Color, 3 or 4 (V1). -/
  ch : Nat
  /-- ORDER[c] is the tuple index sent at wire position c. -/
  order : List Nat
  /-- F_TICK_HZ, the tick rate of the peripheral in hertz. -/
  fTickHz : Nat
  /-- T0H_NS, nominal high time of a 0 bit. -/
  t0hNs : Nat
  /-- T0L_NS, nominal low time of a 0 bit. -/
  t0lNs : Nat
  /-- T1H_NS, nominal high time of a 1 bit. -/
  t1hNs : Nat
  /-- T1L_NS, nominal low time of a 1 bit. -/
  t1lNs : Nat
  /-- TOL_NS, tolerance on each of the four durations. -/
  tolNs : Nat
  /-- TRESET_NS, the protocol's minimum latch time. -/
  tresetNs : Nat
  /-- HW_DEPTH, depth of the channel's symbol memory, in symbols. -/
  hwDepth : Nat
  /-- N_MAX, the largest strip size the builder holds. -/
  nMax : Nat
  /-- MARGIN_TICKS, the margin of a transmission's timeout. -/
  marginTicks : Nat
  deriving DecidableEq, Repr

namespace Config

/-- BITS, bits per channel, fixed at 8 (R8). -/
abbrev bits : Nat := 8

/-- SYM_PER_BIT, fixed at 1 (R8, 90_conflicts.md C1, D1). -/
abbrev symPerBit : Nat := 1

/-- PAD, padding symbols per frame, fixed at 0 (R8, 90_conflicts.md C1, D1). -/
abbrev pad : Nat := 0

/-- DUR_BITS, the width of one duration field of a peripheral word, fixed at 15 (R8, D6). -/
abbrev durBits : Nat := 15

/-- The greatest duration one half of a peripheral word holds, 2^DUR_BITS − 1 = 32767 (R215 V4, V7). -/
abbrev durMax : Nat := 32767

/-- The reference configuration REF80 of R10, with N and ORDER as the example states them. An illustration of the spec's own;
no statement rests on its numbers. -/
def ref80 (n : Nat) (order : List Nat) : Config where
  n := n
  ch := 3
  order := order
  fTickHz := 80000000
  t0hNs := 350
  t0lNs := 800
  t1hNs := 700
  t1lNs := 600
  tolNs := 150
  tresetNs := 50000
  hwDepth := 512
  nMax := 64
  marginTicks := 8000

end Config

/-- ORDER = RGB (R8, R99). -/
abbrev orderRGB : List Nat := [0, 1, 2]

/-- ORDER = GRB (R8, R99). -/
abbrev orderGRB : List Nat := [1, 0, 2]

/-- ORDER = GRBW (R8, R99). -/
abbrev orderGRBW : List Nat := [1, 0, 2, 3]

/-- ORDER = RGBW (R99). -/
abbrev orderRGBW : List Nat := [0, 1, 2, 3]

end Sys2Proof
end

