-- ==== Sys2Proof/Syntax.lean ====
section
/-! DEFINITION. The operands and the seventeen operations of the block, one constructor per row of spec/opcode_table.json
(30_encoding.md R96, R97), and the two encoded forms an operation has. -/

namespace Sys2Proof

/-- A Color (R21): tuple index 0 red, 1 green, 2 blue and, when CH = 4, 3 white. DESIGN CHOICE (log 10): four bytes, as in the
Color word of R91, whose `ch3` "must be 0 when CH = 3". Safe. -/
structure Color where
  ch0 : Byte
  ch1 : Byte
  ch2 : Byte
  ch3 : Byte
  deriving DecidableEq, Repr

/-- A Timing Symbol (R92): the line high for `hi` ticks, then low for `lo` ticks; no high part when `hi = 0`. -/
structure TimingSymbol where
  hi : Nat
  lo : Nat
  deriving DecidableEq, Repr

/-- The operations of R6: seven commands (R96), three functions and seven events (R97). -/
inductive Instr where
  /-- ENCBIT b (R130). The bit operand is two-valued, so no other value can be expressed (R101). -/
  | encbit (b : Bool)
  /-- ENCBYTE v (R131). -/
  | encbyte (v : Byte)
  /-- BUILD C (R151). -/
  | build (c : List Color)
  /-- ATTACH (R170). -/
  | attach
  /-- TRANSMIT (R171). -/
  | transmit
  /-- CHRESET (R182). -/
  | chreset
  /-- UPDATE C (R232). -/
  | update (c : List Color)
  /-- TICKS d, d in nanoseconds (R211). -/
  | ticks (d : Nat)
  /-- TICKS_UP d, d in nanoseconds (R212). -/
  | ticksUp (d : Nat)
  /-- XLATE ts (R216). -/
  | xlate (ts : TimingSymbol)
  /-- TICK, event of CLOCK (R176). -/
  | tick
  /-- P_EMIT, event of PERIPH (R177). -/
  | pEmit
  /-- HW_DONE, event of PERIPH (R178). -/
  | hwDone
  /-- TX_COMPLETE, event of DRV (R179). -/
  | txComplete
  /-- TX_TIMEOUT, event of DRV (R180). -/
  | txTimeout
  /-- TASK_FINISH, event of TASK (R233). -/
  | taskFinish
  /-- RESET, event of HOST, the reset input (R290). -/
  | reset
  deriving DecidableEq, Repr

/-- The three kinds of operation (R6). -/
inductive OpKind where
  | command
  | function
  | event
  deriving DecidableEq, Repr

/-- The five agents that take steps (R7). -/
inductive Agent where
  | host
  | task
  | drv
  | periph
  | clock
  deriving DecidableEq, Repr

/-- Command, function or event (R6, R96, R97). -/
def Instr.kind : Instr → OpKind
  | .encbit _ | .encbyte _ | .build _ | .attach | .transmit | .chreset | .update _ => .command
  | .ticks _ | .ticksUp _ | .xlate _ => .function
  | .tick | .pEmit | .hwDone | .txComplete | .txTimeout | .taskFinish | .reset => .event

/-- The agent whose step an operation is (R7); the pure functions are no agent's (R210). -/
def Instr.agent : Instr → Option Agent
  | .encbit _ | .encbyte _ | .build _ | .attach | .transmit | .chreset | .update _ | .reset => some .host
  | .ticks _ | .ticksUp _ | .xlate _ => none
  | .tick => some .clock
  | .pEmit | .hwDone => some .periph
  | .txComplete | .txTimeout => some .drv
  | .taskFinish => some .task

/-- The mnemonic, as spec/opcode_table.json has it. -/
def Instr.mnemonic : Instr → String
  | .encbit _ => "ENCBIT"
  | .encbyte _ => "ENCBYTE"
  | .build _ => "BUILD"
  | .attach => "ATTACH"
  | .transmit => "TRANSMIT"
  | .chreset => "CHRESET"
  | .update _ => "UPDATE"
  | .ticks _ => "TICKS"
  | .ticksUp _ => "TICKS_UP"
  | .xlate _ => "XLATE"
  | .tick => "TICK"
  | .pEmit => "P_EMIT"
  | .hwDone => "HW_DONE"
  | .txComplete => "TX_COMPLETE"
  | .txTimeout => "TX_TIMEOUT"
  | .taskFinish => "TASK_FINISH"
  | .reset => "RESET"

/-- An operation in its encoded form: the words of a command (R95, R98), or the 8-bit label of a function or an event (R97).
DESIGN CHOICE (log 5): the spec gives a label no operand field, so a function's operands stand beside it. Safe. -/
inductive Encoded where
  | command (words : List Word)
  | label (id : Byte) (operands : List Nat)
  deriving DecidableEq, Repr

end Sys2Proof
end

