-- ==== Sys2Proof/Machine/State.lean ====
section
/-! DEFINITION. The state of the block: every component of 10_state.md R23 to R36, under its own name, and the model's own fields
(`cfg`, `reply`, `port`, `sched`); the state after RESET (R46, R290); why a step may stop. -/

namespace Sys2Proof.Machine

open Sys2Proof

/-- TASK_STATE and DRV_STATE are each one of IDLE, TRANSMITTING (R24, R27). -/
inductive Phase where
  | idle
  | transmitting
  deriving DecidableEq, Repr

/-- The four typed failures of R250. -/
inductive Failure where
  | configurationError
  | resourceBusy
  | hardwareTimeout
  | bufferOverflow
  deriving DecidableEq, Repr

/-- A result code of RESP: OK or one of the four typed failures (R36, R94). -/
inductive Result where
  | ok
  | failed (f : Failure)
  deriving DecidableEq, Repr

/-- DRV_RESULT (R28): NONE, OK or HardwareTimeout. -/
inductive DrvResult where
  | noResult
  | ok
  | hardwareTimeout
  deriving DecidableEq, Repr

/-- An item of WAVE (R34). -/
inductive WaveItem where
  /-- The pin programmed to `level` (true is high) for `ticks` ticks. -/
  | run (level : Bool) (ticks : Nat)
  /-- "An undefined partial signal on the wire" left by a transmission that did not complete. -/
  | abort
  deriving DecidableEq, Repr

/-- What an operation gives its issuer (R13: `return v`, `raise E`). -/
inductive Reply where
  /-- A result code: OK, or the failure raised. -/
  | result (r : Result)
  /-- STARTED (R94, R171). -/
  | started
  /-- ENCBIT's Timing Symbol. -/
  | symbol (ts : TimingSymbol)
  /-- ENCBYTE's eight Timing Symbols. -/
  | symbols (l : List TimingSymbol)
  /-- TICKS and TICKS_UP: a count of ticks. -/
  | count (n : Nat)
  /-- XLATE's peripheral word. -/
  | word (w : Word)
  deriving DecidableEq, Repr

/-- An entry of the schedule: which operation is taken next. -/
inductive Slot where
  /-- HOST's next command is taken from the command port. -/
  | command
  /-- The function or event of a label (R97), with a function's operands. -/
  | label (id : Byte) (operands : List Nat)
  deriving DecidableEq, Repr

/-- The state. The comments give the spec's name of each component. -/
structure State where
  /-- CFG (R8), constant: no step writes it (log 1). -/
  cfg : Config
  /-- ATTACHED (R23). -/
  attached : Bool
  /-- TASK_STATE (R24). -/
  taskState : Phase
  /-- PEND_VALID (R25). -/
  pendValid : Bool
  /-- PEND (R25). -/
  pend : List Color
  /-- SEQ_VALID (R26). -/
  seqValid : Bool
  /-- SEQ (R26). -/
  seq : List TimingSymbol
  /-- DRV_STATE (R27). -/
  drvState : Phase
  /-- DRV_RESULT (R28). -/
  drvResult : DrvResult
  /-- TIMER (R29). -/
  timer : Nat
  /-- TIMEOUT (R29). -/
  timeout : Nat
  /-- TX_DUR (R29). -/
  txDur : Nat
  /-- DONE (R30). -/
  done : Bool
  /-- SB (R31): the words that hold a value, those at index 0..SB_LEN−1 (log 7). -/
  sb : List Word
  /-- SB_LEN (R31). -/
  sbLen : Nat
  /-- P_RUN (R32). -/
  pRun : Bool
  /-- P_IDX (R32). -/
  pIdx : Nat
  /-- LINE (R33); true is high. -/
  line : Bool
  /-- WAVE (R34). -/
  wave : List WaveItem
  /-- NOW (R35). -/
  now : Nat
  /-- RESP (R36). -/
  resp : List Result
  /-- The model's own: what the last operation gave its issuer (R13), if anything (log 6). -/
  reply : Option Reply
  /-- The model's own: HOST's command words not yet taken (R95), oldest first (log 4). -/
  port : List Word
  /-- The model's own: the schedule (R20), the next step first (log 3). -/
  sched : List Slot
  deriving DecidableEq, Repr

/-- The state after RESET under a configuration (R46, R290), with nothing sent and nothing scheduled. -/
def State.resetWith (cfg : Config) : State where
  cfg := cfg
  attached := false
  taskState := .idle
  pendValid := false
  pend := []
  seqValid := false
  seq := []
  drvState := .idle
  drvResult := .noResult
  timer := 0
  timeout := 0
  txDur := 0
  done := false
  sb := []
  sbLen := 0
  pRun := false
  pIdx := 0
  line := false
  wave := []
  now := 0
  resp := []
  reply := none
  port := []
  sched := []

/-- The machine right after reset. DESIGN CHOICE (log 2): CFG is OPEN, and this one plain value needs some CFG; it is REF80 (R10) with
the N = 3, ORDER = RGB of the source's scenario E-S1. Unsafe for a claim about this state's numbers; no statement rests on them. -/
def State.reset : State :=
  State.resetWith (Config.ref80 3 orderRGB)

/-- Why the machine stops with a fault. -/
inductive Fault where
  /-- P_EMIT finds no word at SB[P_IDX] although P_IDX < SB_LEN: a word that holds no value (R31). Raised by P_EMIT only, in
  states no run reaches (`Safety.Inv`). Safe: the model stops. -/
  | wordHoldsNoValue
  deriving DecidableEq, Repr

/-- Why an operation is refused: the spec gives it no step (R13). Every refusal is safe: nothing can be proved of a run that
contains it. -/
inductive Refusal where
  /-- Raised by exec's arm of an operation with no meaning yet (none is left). Safe. -/
  | notModelled (mnemonic : String)
  /-- Raised by step: the configuration fails V1 to V9 (R215, S2). Safe. -/
  | configNotAdmitted
  /-- Raised by step: no agent's step is scheduled (log 3). Safe. -/
  | scheduleEmpty
  /-- Raised by step: the word or label is not a command or label of R96, R97 (R100, S3), or a command is not complete (log 4). Safe. -/
  | notDecodable
  /-- Raised by BUILD and UPDATE: a Color word with ch3 ≠ 0 when CH = 3 (R102, S3). Safe. -/
  | reservedColor
  /-- Raised by ATTACH: `require ATTACHED = 0` (R170, S5). Safe. -/
  | alreadyAttached
  /-- Raised by TRANSMIT, CHRESET, UPDATE: `require ATTACHED = 1` (R171, R182, R232, S5). Safe. -/
  | notAttached
  /-- Raised by TRANSMIT: `require SEQ_VALID = 1` with the driver idle (R171, S6). Safe. -/
  | noSequence
  /-- Raised by CHRESET: `require DRV_STATE = IDLE` (R182, S7). Safe. -/
  | transmissionInFlight
  /-- Raised by XLATE, and by TRANSMIT for a symbol of SEQ: outside XLATE's domain (R216, S8). Safe. -/
  | symbolOutsideDomain
  /-- Raised by P_EMIT: an ill-formed peripheral word (R102, S4). Safe. -/
  | illFormedWord
  /-- Raised by P_EMIT: its enabling condition is false (R177). Safe. -/
  | pEmitNotEnabled
  /-- Raised by HW_DONE: its enabling condition is false (R178). Safe. -/
  | hwDoneNotEnabled
  /-- Raised by TX_COMPLETE: its enabling condition is false (R179). Safe. -/
  | txCompleteNotEnabled
  /-- Raised by TX_TIMEOUT: its enabling condition is false (R180). Safe. -/
  | txTimeoutNotEnabled
  /-- Raised by TASK_FINISH: its enabling condition is false (R233). Safe. -/
  | taskFinishNotEnabled
  deriving DecidableEq, Repr

end Sys2Proof.Machine
end

