-- ==== Sys2Proof/Machine/Timing.lean ====
section
/-! DEFINITION. Nanoseconds to ticks, the three symbol constants and the configuration check (43_symbol_translator.md R211 to R215).
All arithmetic is on unbounded naturals (R106). -/

namespace Sys2Proof.Machine

open Sys2Proof

/-- TICKS(d) = (d × F + 500 000 000) div 10^9: the nearest number of ticks, a tie going up (R211, D3). The literal addend
stands first, where it stays unevaluated beside an unknown product. -/
def ticksOf (f d : Nat) : Nat :=
  (500000000 + d * f) / 1000000000

/-- TICKS_UP(d) = (d × F + 999 999 999) div 10^9: the least number of ticks lasting at least d nanoseconds (R212, D4). -/
def ticksUpOf (f d : Nat) : Nat :=
  (999999999 + d * f) / 1000000000

/-- |a − b|, "the larger minus the smaller" (R11). -/
def absDiff (a b : Nat) : Nat :=
  if a ≤ b then b - a else a - b

/-- within(t, d) (R213). -/
def withinTol (cfg : Config) (t d : Nat) : Bool :=
  decide (absDiff (t * 1000000000) (d * cfg.fTickHz) ≤ cfg.tolNs * cfg.fTickHz)

/-- t0h (R214). -/
def t0h (cfg : Config) : Nat := ticksOf cfg.fTickHz cfg.t0hNs

/-- t0l (R214). -/
def t0l (cfg : Config) : Nat := ticksOf cfg.fTickHz cfg.t0lNs

/-- t1h (R214). -/
def t1h (cfg : Config) : Nat := ticksOf cfg.fTickHz cfg.t1hNs

/-- t1l (R214). -/
def t1l (cfg : Config) : Nat := ticksOf cfg.fTickHz cfg.t1lNs

/-- treset (R214). -/
def treset (cfg : Config) : Nat := ticksUpOf cfg.fTickHz cfg.tresetNs

/-- SYM_ZERO (R9, R214). -/
def symZero (cfg : Config) : TimingSymbol := ⟨t0h cfg, t0l cfg⟩

/-- SYM_ONE (R9, R214). -/
def symOne (cfg : Config) : TimingSymbol := ⟨t1h cfg, t1l cfg⟩

/-- SYM_RESET (R9, R214): "a single low period", no high part. -/
def symReset (cfg : Config) : TimingSymbol := ⟨0, treset cfg⟩

/-- V1: CH = 3 or CH = 4. -/
def checkV1 (cfg : Config) : Bool :=
  cfg.ch == 3 || cfg.ch == 4

/-- V2: ORDER is a permutation of 0..CH−1. -/
def checkV2 (cfg : Config) : Bool :=
  cfg.order.length == cfg.ch && cfg.order.all (fun i => decide (i < cfg.ch)) && decide cfg.order.Nodup

/-- V3: F_TICK_HZ ≥ 1. -/
def checkV3 (cfg : Config) : Bool :=
  decide (1 ≤ cfg.fTickHz)

/-- A duration fits one half of a peripheral word: 1..2^DUR_BITS − 1 (V4). -/
def fitsHalf (t : Nat) : Bool :=
  decide (1 ≤ t) && decide (t ≤ Config.durMax)

/-- V4: the four bit durations fit. -/
def checkV4 (cfg : Config) : Bool :=
  fitsHalf (t0h cfg) && fitsHalf (t0l cfg) && fitsHalf (t1h cfg) && fitsHalf (t1l cfg)

/-- V5: the four bit durations are within tolerance. -/
def checkV5 (cfg : Config) : Bool :=
  withinTol cfg (t0h cfg) cfg.t0hNs && withinTol cfg (t0l cfg) cfg.t0lNs && withinTol cfg (t1h cfg) cfg.t1hNs &&
    withinTol cfg (t1l cfg) cfg.t1lNs

/-- V6: t0h < t1h. -/
def checkV6 (cfg : Config) : Bool :=
  decide (t0h cfg < t1h cfg)

/-- V7: 2 ≤ treset ≤ 2 × (2^DUR_BITS − 1). -/
def checkV7 (cfg : Config) : Bool :=
  decide (2 ≤ treset cfg) && decide (treset cfg ≤ 2 * Config.durMax)

/-- V8: HW_DEPTH ≥ 1 and N_MAX ≤ 65535. -/
def checkV8 (cfg : Config) : Bool :=
  decide (1 ≤ cfg.hwDepth) && decide (cfg.nMax ≤ 65535)

/-- V9's left side: the longest TIMEOUT of a frame the builder can produce. -/
def longestTimeout (cfg : Config) : Nat :=
  cfg.nMax * cfg.ch * 8 * max (t0h cfg + t0l cfg) (t1h cfg + t1l cfg) + treset cfg + cfg.marginTicks

/-- V9: every TX_DUR and TIMEOUT stays below 2^32 − 1. -/
def checkV9 (cfg : Config) : Bool :=
  decide (longestTimeout cfg < 2 ^ 32 - 1)

/-- A configuration is admitted when all of V1 to V9 hold (R215). -/
def admitted (cfg : Config) : Bool :=
  checkV1 cfg && checkV2 cfg && checkV3 cfg && checkV4 cfg && checkV5 cfg && checkV6 cfg && checkV7 cfg && checkV8 cfg &&
    checkV9 cfg

/-- L = N × CH × 8 × SYM_PER_BIT + PAD + 1, the length of a Symbol Sequence (R107). -/
def frameLen (cfg : Config) : Nat :=
  cfg.n * cfg.ch * Config.bits * Config.symPerBit + Config.pad + 1

/-- N_FIT, "the documented maximum strip length" (R175). -/
def nFit (cfg : Config) : Nat :=
  min cfg.nMax ((cfg.hwDepth - 1) / (cfg.ch * 8))

end Sys2Proof.Machine
end

