-- ==== Sys2Proof/WellFormed.lean ====
section
/-! DEFINITION. Which operations are well-formed: those a command word can carry (30_encoding.md R98) and whose Colors are not
reserved under the configured channel count (R91, R102). -/

namespace Sys2Proof

/-- A Color is legal under CH channels: "ch3 ... must be 0 when CH = 3" (R91). -/
def Color.legal (ch : Nat) (c : Color) : Bool :=
  ch == 4 || c.ch3 == 0#8

/-- The operand fits the LEN field: LEN = arg[15:0], 0..65535 (R98). -/
def Instr.lenFits : Instr → Bool
  | .build c | .update c => decide (c.length ≤ 65535)
  | .encbit _ | .encbyte _ | .attach | .transmit | .chreset | .ticks _ | .ticksUp _ | .xlate _ | .tick | .pEmit | .hwDone
  | .txComplete | .txTimeout | .taskFinish | .reset => true

/-- Every Color of the operand is legal (R102). -/
def Instr.colorsLegal (ch : Nat) : Instr → Bool
  | .build c | .update c => c.all (Color.legal ch)
  | .encbit _ | .encbyte _ | .attach | .transmit | .chreset | .ticks _ | .ticksUp _ | .xlate _ | .tick | .pEmit | .hwDone
  | .txComplete | .txTimeout | .taskFinish | .reset => true

/-- Well-formed under CH channels: the two checks together. -/
def Instr.wellFormed (ch : Nat) (i : Instr) : Bool :=
  i.lenFits && i.colorsLegal ch

end Sys2Proof
end

