-- ==== Sys2Proof/Machine/Operands.lean ====
section
/-! DEFINITION. The operand forms: a Color's channels in wire order, the bits of a byte, the frame's symbols (20_memory.md R61 to R64,
40_bit_encoder.md, 41_frame_builder.md R150), and the peripheral word with its fields (30_encoding.md R93, 43_symbol_translator.md R216). -/

namespace Sys2Proof.Machine

open Sys2Proof

/-! ## Colors -/

/-- `col.ch[i]`, the channel at tuple index i (R21). DEDUCED (log 12): an index above 3, which an admitted ORDER never holds (V2),
reads as channel 3. Safe. -/
def colorCh (c : Color) (i : Nat) : Byte :=
  match i with
  | 0 => c.ch0
  | 1 => c.ch1
  | 2 => c.ch2
  | _ => c.ch3

/-- Every Color word of the operand is legal under CH (R91, R102). -/
def colorsLegal (cfg : Config) (c : List Color) : Bool :=
  c.all (Color.legal cfg.ch)

/-- ORDER[c], the tuple index sent at wire position c (R62). -/
def wireIndex (cfg : Config) (c : Nat) : Nat :=
  cfg.order.getD c 0

/-- The bytes of one pixel in wire order: C[p].ch[ORDER[c]] for c in 0..CH−1 (R62). -/
def pixelBytes (cfg : Config) (col : Color) : List Byte :=
  (List.range cfg.ch).map (fun c => colorCh col (wireIndex cfg c))

/-- wire_bytes(C), pixel-major (R153). -/
def wireBytes (cfg : Config) (c : List Color) : List Byte :=
  c.flatMap (pixelBytes cfg)

/-! ## The Bit Encoder's map -/

/-- ENCBIT(b) (R130). -/
def encBit (cfg : Config) (b : Bool) : TimingSymbol :=
  if b then symOne cfg else symZero cfg

/-- ENCBYTE(v): element j is ENCBIT(v[7 − j]), the most significant bit first (R61, R131). -/
def encByte (cfg : Config) (v : Byte) : List TimingSymbol :=
  [encBit cfg (v.getLsbD 7), encBit cfg (v.getLsbD 6), encBit cfg (v.getLsbD 5), encBit cfg (v.getLsbD 4),
   encBit cfg (v.getLsbD 3), encBit cfg (v.getLsbD 2), encBit cfg (v.getLsbD 1), encBit cfg (v.getLsbD 0)]

/-- frame_symbols(C): ENCBYTE over the wire bytes, then one RESET-symbol (R150). -/
def frameSymbols (cfg : Config) (c : List Color) : List TimingSymbol :=
  (wireBytes cfg c).flatMap (encByte cfg) ++ [symReset cfg]

/-- k(p, c, j), the symbol index of bit step j of wire position c of pixel p (R64). -/
def symbolIndex (cfg : Config) (p c j : Nat) : Nat :=
  (p * cfg.ch + c) * 8 + j

/-- hi + lo, the duration of a Timing Symbol (R92). -/
def symbolDur (ts : TimingSymbol) : Nat :=
  ts.hi + ts.lo

/-- The sum of hi + lo over a sequence (R171, R172). -/
def seqDur (l : List TimingSymbol) : Nat :=
  (l.map symbolDur).sum

/-! ## The peripheral word (R93) -/

/-- `{ lvl1, dur1[14:0], lvl0, dur0[14:0] }` (R216). -/
def packWord (lvl1 : Bool) (dur1 : Nat) (lvl0 : Bool) (dur0 : Nat) : Word :=
  BitVec.ofBool lvl1 ++ BitVec.ofNat 15 dur1 ++ BitVec.ofBool lvl0 ++ BitVec.ofNat 15 dur0

/-- dur0, bits 14:0. -/
def wordDur0 (w : Word) : Nat := (w.extractLsb' 0 15).toNat

/-- lvl0, bit 15. -/
def wordLvl0 (w : Word) : Bool := w.getLsbD 15

/-- dur1, bits 30:16. -/
def wordDur1 (w : Word) : Nat := (w.extractLsb' 16 15).toNat

/-- lvl1, bit 31. -/
def wordLvl1 (w : Word) : Bool := w.getLsbD 31

/-- "A well-formed word has dur0 ≥ 1 and dur1 ≥ 1 and lvl1 = 0" (R93). -/
def wordWf (w : Word) : Bool :=
  decide (1 ≤ wordDur0 w) && decide (1 ≤ wordDur1 w) && !wordLvl1 w

/-- dur0 + dur1. -/
def wordDur (w : Word) : Nat :=
  wordDur0 w + wordDur1 w

/-- The two runs a word puts on the pin, first half first (R65, R177). -/
def wordRuns (w : Word) : List WaveItem :=
  [.run (wordLvl0 w) (wordDur0 w), .run (wordLvl1 w) (wordDur1 w)]

/-! ## XLATE -/

/-- A data symbol: hi and lo each in 1..32767 (R216). -/
def dataSymbol (ts : TimingSymbol) : Bool :=
  fitsHalf ts.hi && fitsHalf ts.lo

/-- The RESET-symbol: hi = 0 and lo in 2..65534 (R216). -/
def resetSymbol (ts : TimingSymbol) : Bool :=
  ts.hi == 0 && decide (2 ≤ ts.lo) && decide (ts.lo ≤ 2 * Config.durMax)

/-- XLATE (R216); nothing outside its domain, where its `require` fails. -/
def xlate (ts : TimingSymbol) : Option Word :=
  if dataSymbol ts then some (packWord false ts.lo true ts.hi)
  else if resetSymbol ts then some (packWord false (ts.lo / 2) false (ts.lo - ts.lo / 2))
  else none

/-- XLATE of every symbol of a sequence, in order; nothing if one is outside the domain (R171). -/
def xlateAll : List TimingSymbol → Option (List Word)
  | [] => some []
  | ts :: rest =>
    match xlate ts, xlateAll rest with
    | some w, some ws => some (w :: ws)
    | _, _ => none

/-- The inverse of XLATE on its image (R217 (d)). -/
def unxlate (w : Word) : TimingSymbol :=
  if wordLvl0 w then ⟨wordDur0 w, wordDur1 w⟩ else ⟨0, wordDur0 w + wordDur1 w⟩

end Sys2Proof.Machine
end

