-- ==== Sys2Proof/Machine/Flags.lean ====
section
/-! DEFINITION. The flags and what is computed from them: the enabling condition of every event (42_transmission_driver.md R176 to R180,
44_led_task.md R233), the programmed time S(i) (R177), the result codes (30_encoding.md R94) and the numbered view of the components
(10_state.md R41). -/

namespace Sys2Proof.Machine

open Sys2Proof

/-- S(i) = Σ_{j<i} (SB[j].dur0 + SB[j].dur1), the programmed time from the start to the end of symbol i − 1 (R177). -/
def programmedTime (sb : List Word) (i : Nat) : Nat :=
  ((sb.take i).map wordDur).sum

/-- Enabling condition of P_EMIT: P_RUN = 1 and P_IDX < SB_LEN and TIMER ≥ S(P_IDX + 1) (R177). -/
def pEmitEnabled (s : State) : Bool :=
  s.pRun && decide (s.pIdx < s.sbLen) && decide (programmedTime s.sb (s.pIdx + 1) ≤ s.timer)

/-- Enabling condition of HW_DONE: P_RUN = 1 and P_IDX = SB_LEN (R178). -/
def hwDoneEnabled (s : State) : Bool :=
  s.pRun && decide (s.pIdx = s.sbLen)

/-- Enabling condition of TX_COMPLETE: DRV_STATE = TRANSMITTING and DONE = 1 (R179). -/
def txCompleteEnabled (s : State) : Bool :=
  decide (s.drvState = .transmitting) && s.done

/-- Enabling condition of TX_TIMEOUT: DRV_STATE = TRANSMITTING and DONE = 0 and TIMER > TIMEOUT (R180). -/
def txTimeoutEnabled (s : State) : Bool :=
  decide (s.drvState = .transmitting) && !s.done && decide (s.timeout < s.timer)

/-- Enabling condition of TASK_FINISH: TASK_STATE = TRANSMITTING and DRV_STATE = IDLE and DRV_RESULT ≠ NONE (R233). -/
def taskFinishEnabled (s : State) : Bool :=
  decide (s.taskState = .transmitting) && decide (s.drvState = .idle) && decide (s.drvResult ≠ .noResult)

/-- The greatest value of TIMER, 2^32 − 1 (R29, R176). -/
abbrev timerMax : Nat := 4294967295

/-- The saturating increment min(TIMER + 1, 2^32 − 1) (R106, R176). -/
def satIncr (t : Nat) : Nat :=
  min (t + 1) timerMax

/-! ## Result codes (R94) -/

/-- The code of a typed failure (R250). -/
def failureCode : Failure → Byte
  | .configurationError => 0x01#8
  | .resourceBusy => 0x02#8
  | .hardwareTimeout => 0x03#8
  | .bufferOverflow => 0x04#8

/-- The code of an entry of RESP. -/
def resultCode : Result → Byte
  | .ok => 0x00#8
  | .failed f => failureCode f

/-- The code of DRV_RESULT: 0xFF NONE, 0 OK, 3 HardwareTimeout (R41, R94). -/
def drvResultCode : DrvResult → Byte
  | .noResult => 0xFF#8
  | .ok => 0x00#8
  | .hardwareTimeout => 0x03#8

/-- The code of a reply that is a result code or STARTED (R94); a data reply has none. -/
def replyCode : Reply → Option Byte
  | .result r => some (resultCode r)
  | .started => some 0x10#8
  | .symbol _ | .symbols _ | .count _ | .word _ => none

/-- A posted DRV_RESULT as the result TASK_FINISH reports (R233). -/
def postedResult : DrvResult → Option Result
  | .noResult => none
  | .ok => some .ok
  | .hardwareTimeout => some (.failed .hardwareTimeout)

/-! ## The numbered view (R41): labels only, nothing decodes them -/

/-- A 1-bit component as a number. -/
def bitNat (b : Bool) : Nat :=
  if b then 1 else 0

/-- IDLE is 0, TRANSMITTING is 1 (R41). -/
def phaseNat : Phase → Nat
  | .idle => 0
  | .transmitting => 1

/-- The value of component number `k` of R41. -/
def component (s : State) (k : Nat) : Option Nat :=
  match k with
  | 0 => some (bitNat s.attached)
  | 1 => some (phaseNat s.taskState)
  | 2 => some (bitNat s.pendValid)
  | 3 => some s.pend.length
  | 4 => some (bitNat s.seqValid)
  | 5 => some s.seq.length
  | 6 => some (phaseNat s.drvState)
  | 7 => some (drvResultCode s.drvResult).toNat
  | 8 => some s.timer
  | 9 => some s.timeout
  | 10 => some s.txDur
  | 11 => some (bitNat s.done)
  | 12 => some s.sbLen
  | 13 => some (bitNat s.pRun)
  | 14 => some s.pIdx
  | 15 => some (bitNat s.line)
  | _ => none

end Sys2Proof.Machine
end

