-- ==== Sys2Proof/Machine/Ops.lean ====
section
/-! DEFINITION. The shared operations over the components: giving an operation's value to its issuer, raising a typed failure
(60_exceptions.md R250 to R261), reporting to RESP, and the procedures BUILD, TRANSMIT, chreset and start_frame that several
operations use. -/

namespace Sys2Proof.Machine

open Sys2Proof

/-! ## What an operation gives its issuer (R13) -/

/-- `return v`: the value to the issuer, no other write. -/
def State.give (s : State) (r : Reply) : State :=
  { s with reply := some r }

/-- An operation or event that gives its issuer no value. -/
def State.giveNothing (s : State) : State :=
  { s with reply := none }

/-- `raise E`: TAKING A FAILURE "saves nothing, changes no mode and transfers control nowhere" (R260); the code goes to the issuer
(R256). The writes of the raising rule come before it. There is no return from it (R262). -/
def State.raise (s : State) (f : Failure) : State :=
  s.give (.result (.failed f))

/-- `respond(c)`: append result code c to RESP (R13, R36). -/
def State.respond (s : State) (r : Result) : State :=
  { s with resp := s.resp ++ [r] }

/-! ## The builder (R151) -/

/-- SEQ <- [] ; SEQ_VALID <- 0. -/
def State.clearSeq (s : State) : State :=
  { s with seq := [], seqValid := false }

/-- "Unsupported strip size": N = 0 or N > N_MAX (R151, D12). -/
def unsupportedSize (cfg : Config) : Bool :=
  decide (cfg.n = 0) || decide (cfg.nMax < cfg.n)

/-- BUILD(C) (R151): the result and the state. -/
def buildSeq (s : State) (c : List Color) : Result × State :=
  if unsupportedSize s.cfg then (.failed .configurationError, s.clearSeq)
  else if c.length ≠ s.cfg.n then (.failed .configurationError, s.clearSeq)
  else (.ok, { s with seq := frameSymbols s.cfg c, seqValid := true })

/-! ## The driver (R171, R181) -/

/-- What TRANSMIT answers (R171): STARTED, or the failure it raises. -/
inductive TxAnswer where
  | started
  | resourceBusy
  | bufferOverflow
  deriving DecidableEq, Repr

/-- The writes of a start, from "hardware interaction begins here" on (R171): SB loaded with the given words, the wait set up, the
channel running, SEQ moved out. -/
def State.startChannel (s : State) (words : List Word) : State :=
  { s with
    sb := words
    sbLen := s.seq.length
    txDur := seqDur s.seq
    timeout := seqDur s.seq + s.cfg.marginTicks
    timer := 0
    done := false
    drvResult := .noResult
    pIdx := 0
    pRun := true
    seq := []
    seqValid := false
    drvState := .transmitting }

/-- TRANSMIT (R171): the busy test first, then the sequence, then the capacity (R259, D11). -/
def transmitSeq (s : State) : Except Refusal (TxAnswer × State) :=
  if !s.attached then .error .notAttached
  else if s.drvState = .transmitting then .ok (.resourceBusy, s)
  else if !s.seqValid then .error .noSequence
  else if s.cfg.hwDepth < s.seq.length then .ok (.bufferOverflow, s.clearSeq)
  else
    match xlateAll s.seq with
    | none => .error .symbolOutsideDomain
    | some words => .ok (.started, s.startChannel words)

/-- chreset(), the channel reset procedure (R181). With SB_LEN = 0 no word of SB holds a value (R31). -/
def State.channelReset (s : State) : State :=
  { s with
    wave := if s.pRun then s.wave ++ [.abort] else s.wave
    pRun := false
    pIdx := 0
    sb := []
    sbLen := 0
    done := false
    line := false }

/-! ## The LED Task (R231) -/

/-- start_frame(C) (R231): build, then transmit; a failure is reported to RESP and leaves TASK_STATE as it is. -/
def startFrame (s : State) (c : List Color) : Except Refusal State :=
  match buildSeq s c with
  | (.failed f, s1) => .ok (s1.respond (.failed f))
  | (.ok, s1) =>
    match transmitSeq s1 with
    | .error r => .error r
    | .ok (.bufferOverflow, s2) => .ok (s2.respond (.failed .bufferOverflow))
    | .ok (.resourceBusy, s2) => .ok (s2.clearSeq.respond (.failed .resourceBusy))
    | .ok (.started, s2) => .ok { s2 with taskState := .transmitting }

/-- A step that goes on, or is refused. -/
def stepOf : Except Refusal State → Host.Outcome State Fault Refusal
  | .ok s => .next s
  | .error r => .refused r

end Sys2Proof.Machine
end

