-- ==== Sys2Proof/Machine/BitEncoder.lean ====
section
/-! DEFINITION. The Bit Encoder: ENCBIT, ENCBYTE (40_bit_encoder.md). -/

namespace Sys2Proof.Machine

open Sys2Proof

/-- ENCBIT b (R130): pure, evaluated in any state (R132). -/
def execEncbit (b : Bool) (s : State) : Host.Outcome State Fault Refusal :=
  .next (s.give (.symbol (encBit s.cfg b)))

/-- ENCBYTE v (R131): pure, evaluated in any state (R132). -/
def execEncbyte (v : Byte) (s : State) : Host.Outcome State Fault Refusal :=
  .next (s.give (.symbols (encByte s.cfg v)))

end Sys2Proof.Machine
end

