-- ==== Sys2Proof/Machine/Channel.lean ====
section
/-! DEFINITION. The clock and the pulse-generation channel: TICK, P_EMIT, HW_DONE (42_transmission_driver.md R176 to R178). -/

namespace Sys2Proof.Machine

open Sys2Proof

/-- TICK (R176): always enabled; TIMER moves only while the driver is TRANSMITTING, and saturates. -/
def execTick (s : State) : Host.Outcome State Fault Refusal :=
  .next { s.giveNothing with
    now := s.now + 1
    timer := if s.drvState = .transmitting then satIncr s.timer else s.timer }

/-- P_EMIT (R177): one symbol has fully left the channel. An ill-formed word has no meaning (R102, S4), and a word that holds no
value is not read (R31); neither stands below SB_LEN in a reachable state. -/
def execPEmit (s : State) : Host.Outcome State Fault Refusal :=
  if pEmitEnabled s then
    match s.sb[s.pIdx]? with
    | none => .fault .wordHoldsNoValue
    | some w =>
      if wordWf w then
        .next { s.giveNothing with
          wave := s.wave ++ wordRuns w
          line := wordLvl1 w
          pIdx := s.pIdx + 1 }
      else .refused .illFormedWord
  else .refused .pEmitNotEnabled

/-- HW_DONE (R178): the channel raises its completion signal. -/
def execHwDone (s : State) : Host.Outcome State Fault Refusal :=
  if hwDoneEnabled s then
    .next { s.giveNothing with
      done := true
      pRun := false
      line := false }
  else .refused .hwDoneNotEnabled

end Sys2Proof.Machine
end

