-- ==== Sys2Proof/Machine/Driver.lean ====
section
/-! DEFINITION. The Transmission Driver: ATTACH, TRANSMIT, CHRESET, TX_COMPLETE, TX_TIMEOUT (42_transmission_driver.md). -/

namespace Sys2Proof.Machine

open Sys2Proof

/-- ATTACH (R170): the one-time hand-off of the channel. -/
def execAttach (s : State) : Host.Outcome State Fault Refusal :=
  if s.attached then .refused .alreadyAttached
  else .next ({ s with attached := true, line := false }.give (.result .ok))

/-- TRANSMIT (R171), issued by HOST: STARTED or the failure goes to HOST. -/
def execTransmit (s : State) : Host.Outcome State Fault Refusal :=
  match transmitSeq s with
  | .error r => .refused r
  | .ok (.started, s1) => .next (s1.give .started)
  | .ok (.resourceBusy, s1) => .next (s1.raise .resourceBusy)
  | .ok (.bufferOverflow, s1) => .next (s1.raise .bufferOverflow)

/-- CHRESET (R182): the driver's reset of an idle channel. -/
def execChreset (s : State) : Host.Outcome State Fault Refusal :=
  if !s.attached then .refused .notAttached
  else if s.drvState = .transmitting then .refused .transmissionInFlight
  else .next (s.channelReset.give (.result .ok))

/-- TX_COMPLETE (R179): the driver sees the completion signal; the sequence is discarded. -/
def execTxComplete (s : State) : Host.Outcome State Fault Refusal :=
  if txCompleteEnabled s then
    .next { s.giveNothing with
      drvResult := .ok
      sb := []
      sbLen := 0
      pIdx := 0
      done := false
      drvState := .idle }
  else .refused .txCompleteNotEnabled

/-- TX_TIMEOUT (R180): HardwareTimeout is posted and the channel reset. -/
def execTxTimeout (s : State) : Host.Outcome State Fault Refusal :=
  if txTimeoutEnabled s then
    .next { s.giveNothing.channelReset with
      drvResult := .hardwareTimeout
      drvState := .idle }
  else .refused .txTimeoutNotEnabled

end Sys2Proof.Machine
end

