-- ==== Sys2Proof/Machine/FrameBuilder.lean ====
section
/-! DEFINITION. The Frame Buffer Builder: BUILD (41_frame_builder.md). -/

namespace Sys2Proof.Machine

open Sys2Proof

/-- BUILD C (R151), issued by HOST: the result goes to HOST. A command that carries a reserved Color word is refused (R102). -/
def execBuild (c : List Color) (s : State) : Host.Outcome State Fault Refusal :=
  if !colorsLegal s.cfg c then .refused .reservedColor
  else
    match buildSeq s c with
    | (.ok, s1) => .next (s1.give (.result .ok))
    | (.failed f, s1) => .next (s1.raise f)

end Sys2Proof.Machine
end

