-- ==== Sys2Proof/Machine/LedTask.lean ====
section
/-! DEFINITION. The LED Task: UPDATE, TASK_FINISH (44_led_task.md). -/

namespace Sys2Proof.Machine

open Sys2Proof

/-- UPDATE C (R232): starts the frame, or keeps it as the latest pending one. It gives its issuer no value at once (D19); a command that
carries a reserved Color word is refused (R102). -/
def execUpdate (c : List Color) (s : State) : Host.Outcome State Fault Refusal :=
  if !colorsLegal s.cfg c then .refused .reservedColor
  else if !s.attached then .refused .notAttached
  else
    match s.taskState with
    | .idle => stepOf (startFrame s.giveNothing c)
    | .transmitting => .next { s.giveNothing with pend := c, pendValid := true }

/-- What TASK_FINISH writes before it looks at the pending slot (R233). -/
def State.finishFrame (s : State) (r : Result) : State :=
  { s.giveNothing.respond r with drvResult := .noResult, taskState := .idle }

/-- TASK_FINISH (R233): reports the posted result, then starts the pending frame in the same step (D20). -/
def execTaskFinish (s : State) : Host.Outcome State Fault Refusal :=
  match taskFinishEnabled s, postedResult s.drvResult with
  | true, some r =>
    if s.pendValid then
      stepOf (startFrame { s.finishFrame r with pend := [], pendValid := false } s.pend)
    else .next (s.finishFrame r)
  | _, _ => .refused .taskFinishNotEnabled

end Sys2Proof.Machine
end

