-- ==== Sys2Proof/Machine/ResetInput.lean ====
section
/-! DEFINITION. The reset input: RESET (70_reset_and_hazards.md R290). -/

namespace Sys2Proof.Machine

open Sys2Proof

/-- RESET (R290): always enabled; every component to its reset value. DESIGN CHOICE (log 14): CFG, the command port and the schedule are
outside the block and stay. Safe. -/
def execReset (s : State) : Host.Outcome State Fault Refusal :=
  .next { State.resetWith s.cfg with port := s.port, sched := s.sched }

end Sys2Proof.Machine
end

