-- ==== Sys2Proof/Machine/Translator.lean ====
section
/-! DEFINITION. The symbol translator: TICKS, TICKS_UP, XLATE (43_symbol_translator.md). None reads or writes a component (R210). -/

namespace Sys2Proof.Machine

open Sys2Proof

/-- TICKS d (R211). -/
def execTicks (d : Nat) (s : State) : Host.Outcome State Fault Refusal :=
  .next (s.give (.count (ticksOf s.cfg.fTickHz d)))

/-- TICKS_UP d (R212). -/
def execTicksUp (d : Nat) (s : State) : Host.Outcome State Fault Refusal :=
  .next (s.give (.count (ticksUpOf s.cfg.fTickHz d)))

/-- XLATE ts (R216): refused outside its domain. -/
def execXlate (ts : TimingSymbol) (s : State) : Host.Outcome State Fault Refusal :=
  match xlate ts with
  | some w => .next (s.give (.word w))
  | none => .refused .symbolOutsideDomain

end Sys2Proof.Machine
end

