-- ==== Sys2Proof/Machine/Dispatch.lean ====
section
/-! DEFINITION. One operation at a state: one arm per row of spec/opcode_table.json. -/

namespace Sys2Proof.Machine

open Sys2Proof

def exec (i : Instr) (s : State) : Host.Outcome State Fault Refusal :=
  match i with
  -- commands (R96)
  | .encbit b => Sys2Proof.Machine.execEncbit b s
  | .encbyte v => Sys2Proof.Machine.execEncbyte v s
  | .build c => Sys2Proof.Machine.execBuild c s
  | .attach => Sys2Proof.Machine.execAttach s
  | .transmit => Sys2Proof.Machine.execTransmit s
  | .chreset => Sys2Proof.Machine.execChreset s
  | .update c => Sys2Proof.Machine.execUpdate c s
  -- functions (R97)
  | .ticks d => Sys2Proof.Machine.execTicks d s
  | .ticksUp d => Sys2Proof.Machine.execTicksUp d s
  | .xlate ts => Sys2Proof.Machine.execXlate ts s
  -- events (R97)
  | .tick => Sys2Proof.Machine.execTick s
  | .pEmit => Sys2Proof.Machine.execPEmit s
  | .hwDone => Sys2Proof.Machine.execHwDone s
  | .txComplete => Sys2Proof.Machine.execTxComplete s
  | .txTimeout => Sys2Proof.Machine.execTxTimeout s
  | .taskFinish => Sys2Proof.Machine.execTaskFinish s
  | .reset => Sys2Proof.Machine.execReset s

end Sys2Proof.Machine
end

