-- ==== Sys2Proof/Decode.lean ====
section
/-! DEFINITION. From encoded forms to operations and back (30_encoding.md R91, R95 to R98, R100). The decoder is total: it answers
an operation with the words left over, or names what it rejects. The encoder is written from the same tables. -/

namespace Sys2Proof

/-- Why an encoded form is rejected. A rejected form has no step (R13, R100): safe. -/
inductive DecodeError where
  /-- There is no command word on the port. -/
  | noWord
  /-- A command word matched by no row of R96: "reserved" (R100). -/
  | reservedCommand (w : Word)
  /-- Fewer Color words follow than LEN says, so the command is not complete (R98). -/
  | missingColorWords
  /-- Words are left after a whole command, where exactly one command was to be read. -/
  | trailingWords
  /-- A label that R97 does not list, or one with operands its row does not take. -/
  | reservedLabel (id : Byte)
  deriving DecidableEq, Repr

/-! ## Color words -/

/-- The Color a Color word carries (R91). -/
def colorOfWord (w : Word) : Color where
  ch0 := w.extractLsb' 0 8
  ch1 := w.extractLsb' 8 8
  ch2 := w.extractLsb' 16 8
  ch3 := w.extractLsb' 24 8

/-- The Color word of a Color (R91). -/
def wordOfColor (c : Color) : Word :=
  c.ch3 ++ c.ch2 ++ c.ch1 ++ c.ch0

/-- The first `n` words as Colors, in order, and the rest (R98); nothing if there are fewer. -/
def takeColors : Nat → List Word → Option (List Color × List Word)
  | 0, ws => some ([], ws)
  | _ + 1, [] => none
  | n + 1, w :: ws =>
    match takeColors n ws with
    | some (cs, rest) => some (colorOfWord w :: cs, rest)
    | none => none

/-- An operation whose operand is the Color words that follow. -/
def withColors (mk : List Color → Instr) (n : Nat) (ws : List Word) : Except DecodeError (Instr × List Word) :=
  match takeColors n ws with
  | some (cs, rest) => .ok (mk cs, rest)
  | none => .error .missingColorWords

/-! ## Command words (R95, R96, R98) -/

/-- LEN = arg[15:0], zero-extended (R98). -/
def lenOf (w : Word) : Nat :=
  (w.extractLsb' 0 16).toNat

/-- Read one command from a stream of words: each test is one row of R96, its fixed bits compared whole. -/
def decodeCommand : List Word → Except DecodeError (Instr × List Word)
  | [] => .error .noWord
  | w :: ws =>
    if w.extractLsb' 1 31 = 0x00800000#31 then .ok (.encbit (w.getLsbD 0), ws)
    else if w.extractLsb' 8 24 = 0x020000#24 then .ok (.encbyte (w.extractLsb' 0 8), ws)
    else if w.extractLsb' 16 16 = 0x1000#16 then withColors .build (lenOf w) ws
    else if w = 0x20000000#32 then .ok (.attach, ws)
    else if w = 0x21000000#32 then .ok (.transmit, ws)
    else if w = 0x22000000#32 then .ok (.chreset, ws)
    else if w.extractLsb' 16 16 = 0x3000#16 then withColors .update (lenOf w) ws
    else .error (.reservedCommand w)

/-! ## Labels (R97) -/

/-- Read a label and its operands. -/
def decodeLabel (id : Byte) (operands : List Nat) : Except DecodeError Instr :=
  if id = 0x80#8 then
    match operands with
    | [d] => .ok (.ticks d)
    | _ => .error (.reservedLabel id)
  else if id = 0x81#8 then
    match operands with
    | [d] => .ok (.ticksUp d)
    | _ => .error (.reservedLabel id)
  else if id = 0x82#8 then
    match operands with
    | [hi, lo] => .ok (.xlate ⟨hi, lo⟩)
    | _ => .error (.reservedLabel id)
  else if operands ≠ [] then .error (.reservedLabel id)
  else if id = 0xC0#8 then .ok .tick
  else if id = 0xC1#8 then .ok .pEmit
  else if id = 0xC2#8 then .ok .hwDone
  else if id = 0xC3#8 then .ok .txComplete
  else if id = 0xC4#8 then .ok .txTimeout
  else if id = 0xC5#8 then .ok .taskFinish
  else if id = 0xCF#8 then .ok .reset
  else .error (.reservedLabel id)

/-- Read exactly one operation. -/
def decode : Encoded → Except DecodeError Instr
  | .command ws =>
    match decodeCommand ws with
    | .ok (i, []) => .ok i
    | .ok (_, _ :: _) => .error .trailingWords
    | .error e => .error e
  | .label id operands => decodeLabel id operands

/-! ## The encoder -/

/-- The command word of an op code and its 24-bit argument (R95). -/
def commandWord (op : Byte) (arg : BitVec 24) : Word :=
  op ++ arg

/-- The words of a command with Color words: op, arg[23:16] = 0, LEN, then the Colors (R96, R98). -/
def colorCommand (op : Byte) (c : List Color) : List Word :=
  commandWord op (0#8 ++ BitVec.ofNat 16 c.length) :: c.map wordOfColor

/-- The encoded form of an operation (R95 to R98). -/
def encode : Instr → Encoded
  | .encbit b => .command [commandWord 0x01#8 (0#23 ++ BitVec.ofBool b)]
  | .encbyte v => .command [commandWord 0x02#8 (0#16 ++ v)]
  | .build c => .command (colorCommand 0x10#8 c)
  | .attach => .command [commandWord 0x20#8 0#24]
  | .transmit => .command [commandWord 0x21#8 0#24]
  | .chreset => .command [commandWord 0x22#8 0#24]
  | .update c => .command (colorCommand 0x30#8 c)
  | .ticks d => .label 0x80#8 [d]
  | .ticksUp d => .label 0x81#8 [d]
  | .xlate ts => .label 0x82#8 [ts.hi, ts.lo]
  | .tick => .label 0xC0#8 []
  | .pEmit => .label 0xC1#8 []
  | .hwDone => .label 0xC2#8 []
  | .txComplete => .label 0xC3#8 []
  | .txTimeout => .label 0xC4#8 []
  | .taskFinish => .label 0xC5#8 []
  | .reset => .label 0xCF#8 []

/-! ## Words as spec/opcode_table.json numbers them -/

/-- How many operand words follow a command word: LEN for BUILD and UPDATE, none otherwise (R98). -/
def operandWords (w : Word) : Nat :=
  if w.extractLsb' 16 16 = 0x1000#16 ∨ w.extractLsb' 16 16 = 0x3000#16 then lenOf w else 0

/-- How many operands a label takes (R104). -/
def labelOperands (id : Byte) : Nat :=
  if id = 0x80#8 ∨ id = 0x81#8 then 1 else if id = 0x82#8 then 2 else 0

/-- The encoded form whose table bits are `w`, every operand beyond them 0: a 32-bit row is a command word with its Color words,
an 8-bit row a label. -/
def tableEncoded (nbits w : Nat) : Option Encoded :=
  if nbits = 32 then
    some (.command (BitVec.ofNat 32 w :: List.replicate (operandWords (BitVec.ofNat 32 w)) 0#32))
  else if nbits = 8 then
    some (.label (BitVec.ofNat 8 w) (List.replicate (labelOperands (BitVec.ofNat 8 w)) 0))
  else none

/-- What the decoder reads from an operation whose bits the table numbers as `w`. -/
def decodeTableWord (nbits w : Nat) : Option Instr :=
  match tableEncoded nbits w with
  | some e =>
    match decode e with
    | .ok i => some i
    | .error _ => none
  | none => none

/-! ## The packed and the written form of ORDER (R99) -/

/-- "2 bits per wire position, position 0 in bits 1:0". -/
def packOrder : List Nat → Nat
  | [] => 0
  | i :: is => i + 4 * packOrder is

/-- R = 0, G = 1, B = 2, W = 3. -/
def channelOfLetter (l : Char) : Option Nat :=
  if l = 'R' then some 0 else if l = 'G' then some 1 else if l = 'B' then some 2 else if l = 'W' then some 3 else none

/-- ORDER from a string of channel letters in wire order. -/
def orderOfLetters : List Char → Option (List Nat)
  | [] => some []
  | l :: ls =>
    match channelOfLetter l, orderOfLetters ls with
    | some i, some is => some (i :: is)
    | _, _ => none

end Sys2Proof
end

