-- ==== Sys2Proof/Machine/Fetch.lean ====
section
/-! DEFINITION. Taking the next operation: the head of the schedule names HOST's next command, read from the command port word by word
(30_encoding.md R95, R98), or a label (R97). -/

namespace Sys2Proof.Machine

open Sys2Proof

/-- The next operation, and the state with it taken off the schedule and its words off the port; or why there is none. -/
def fetch (s : State) : Except Refusal (Instr × State) :=
  match s.sched with
  | [] => .error .scheduleEmpty
  | .command :: rest =>
    match decodeCommand s.port with
    | .ok (i, words) => .ok (i, { s with sched := rest, port := words })
    | .error _ => .error .notDecodable
  | .label id operands :: rest =>
    match decodeLabel id operands with
    | .ok i => .ok (i, { s with sched := rest })
    | .error _ => .error .notDecodable

/-- Put an encoded operation where `fetch` takes the next one: before what is already scheduled and sent. -/
def State.place (s : State) : Encoded → State
  | .command words => { s with sched := .command :: s.sched, port := words ++ s.port }
  | .label id operands => { s with sched := .label id operands :: s.sched }

end Sys2Proof.Machine
end

