-- ==== Sys2Proof/Machine/Step.lean ====
section
/-! DEFINITION. One step of the machine: under an admitted configuration (43_symbol_translator.md R215), the scheduled operation. -/

namespace Sys2Proof.Machine

open Sys2Proof

/-- One atomic step (00_scope.md R7). -/
def step (s : State) : Host.Outcome State Fault Refusal :=
  if admitted s.cfg then
    match fetch s with
    | .ok (i, s') => exec i s'
    | .error r => .refused r
  else .refused .configNotAdmitted

/-- The state with one more operation, given by its table bits, placed where the next step takes its operation (log 3). A width that
no table row has places nothing. -/
def State.withFetchWord (s : State) (nbits w : Nat) : State :=
  match tableEncoded nbits w with
  | some e => s.place e
  | none => s

end Sys2Proof.Machine
end

