-- ==== Sys2Proof/Machine/Pseudo.lean ====
section
/-! DEFINITION. Sequences of operations, and the pseudo-operations of 30_encoding.md R105: TICK*k, DRAIN, STALL, FRAME, each an
abbreviation for a sequence of operations. -/

namespace Sys2Proof.Machine

open Sys2Proof

/-- Take a list of operations one after another; stop at the first that is no step. -/
def execAll : List Instr → State → Host.Outcome State Fault Refusal
  | [], s => .next s
  | i :: is, s =>
    match exec i s with
    | .next t => execAll is t
    | .fault f => .fault f
    | .refused r => .refused r

/-- `TICK*k`. -/
def tickTimes (k : Nat) : List Instr :=
  List.replicate k .tick

/-- The P_EMITs of DRAIN for `k` symbols from symbol `i` on, each after the ticks up to its programmed time. -/
def drainSymbols (sb : List Word) (timer i : Nat) : Nat → List Instr
  | 0 => []
  | k + 1 =>
    tickTimes (programmedTime sb (i + 1) - timer) ++
      (.pEmit :: drainSymbols sb (max timer (programmedTime sb (i + 1))) (i + 1) k)

/-- `DRAIN`: the healthy channel emits the rest of the frame, and the driver sees the end. -/
def drain (s : State) : List Instr :=
  drainSymbols s.sb s.timer s.pIdx (s.sbLen - s.pIdx) ++ [.hwDone, .txComplete]

/-- "Legal only when DRV_STATE = TRANSMITTING and P_RUN = 1." -/
def drainLegal (s : State) : Bool :=
  decide (s.drvState = .transmitting) && s.pRun

/-- `STALL`: the channel never reports completion. -/
def stall (s : State) : List Instr :=
  tickTimes (s.timeout + 1 - s.timer) ++ [.txTimeout]

/-- "Legal only when DRV_STATE = TRANSMITTING, DONE = 0 and TIMER ≤ TIMEOUT." -/
def stallLegal (s : State) : Bool :=
  decide (s.drvState = .transmitting) && !s.done && decide (s.timer ≤ s.timeout)

/-- `FRAME [...]`: UPDATE then DRAIN then TASK_FINISH. -/
def frame (c : List Color) (s : State) : Host.Outcome State Fault Refusal :=
  match exec (.update c) s with
  | .next t => execAll (drain t ++ [.taskFinish]) t
  | .fault f => .fault f
  | .refused r => .refused r

/-- "Legal only when TASK_STATE = IDLE." -/
def frameLegal (s : State) : Bool :=
  decide (s.taskState = .idle)

end Sys2Proof.Machine
end

