-- ==== Sys2Proof/Safety.lean ====
section
/-! DEFINITION. The terms the claims use: the invariants of 10_state.md R44, HOST's duties (70_reset_and_hazards.md R303), and what a start of
a transmission writes, spelled out from 42_transmission_driver.md R171 without the machine's own procedures. -/

namespace Sys2Proof.Safety

open Sys2Proof
open Sys2Proof.Machine

/-- A transmission is in flight: what R44 clause 3 says of a state with DRV_STATE = TRANSMITTING, with two facts R178 gives: every symbol
that left waited for its programmed time, and completion is reported only after the last. -/
structure InFlight (s : State) : Prop where
  attached : s.attached = true
  sbLen_pos : 1 ≤ s.sbLen
  sbLen_le : s.sbLen ≤ s.cfg.hwDepth
  pIdx_le : s.pIdx ≤ s.sbLen
  txDur_eq : s.txDur = programmedTime s.sb s.sbLen
  timeout_eq : s.timeout = s.txDur + s.cfg.marginTicks
  noResult : s.drvResult = .noResult
  runXorDone : s.pRun = !s.done
  doneAtEnd : s.done = true → s.pIdx = s.sbLen
  notEarly : programmedTime s.sb s.pIdx ≤ s.timer

/-- SEQ holds a whole frame (R44 clause 1, R156). -/
def HoldsFrame (s : State) : Prop :=
  1 ≤ s.cfg.n ∧ s.cfg.n ≤ s.cfg.nMax ∧
    ∃ c : List Color, c.length = s.cfg.n ∧ colorsLegal s.cfg c = true ∧ s.seq = frameSymbols s.cfg c

/-- The invariant of every state reachable from reset under an admitted configuration, with no premise on HOST: R44 clauses 1 to 4, 6 to 8, the
first part of clause 5, and the widths of R29, R31 and R45. -/
structure Inv (s : State) : Prop where
  admitted : Machine.admitted s.cfg = true
  seqEmpty : s.seqValid = false → s.seq = []
  seqFrame : s.seqValid = true → HoldsFrame s
  idle : s.drvState = .idle → s.pRun = false ∧ s.sbLen = 0 ∧ s.pIdx = 0 ∧ s.done = false
  busy : s.drvState = .transmitting → InFlight s
  sbLen_eq : s.sb.length = s.sbLen
  sbWf : ∀ w ∈ s.sb, wordWf w = true
  pendIdle : s.taskState = .idle → s.pendValid = false
  pendEmpty : s.pendValid = false → s.pend = []
  pendLen : s.pend.length ≤ 65535
  pendLegal : colorsLegal s.cfg s.pend = true
  taskAttached : s.taskState = .transmitting → s.attached = true
  low : s.line = false
  timer_lt : s.timer < 2 ^ 32
  timeout_lt : s.timeout < 2 ^ 32 - 1
  txDur_lt : s.txDur < 2 ^ 32 - 1

/-- HOST's duty 2 (R303): in a run that uses UPDATE, HOST issues no BUILD, TRANSMIT or CHRESET of its own. -/
def keepsDuty : Instr → Bool
  | .build _ | .transmit | .chreset => false
  | .encbit _ | .encbyte _ | .attach | .update _ | .ticks _ | .ticksUp _ | .xlate _ | .tick | .pEmit | .hwDone | .txComplete
  | .txTimeout | .taskFinish | .reset => true

/-- The rest of R44 clause 5, which needs HOST's duty: an idle task has an idle driver with no result posted, a waiting task has a
transmission or its result, and no sequence is left over. -/
structure TaskForm (s : State) : Prop where
  idle : s.taskState = .idle → s.drvState = .idle ∧ s.drvResult = .noResult
  waiting : s.taskState = .transmitting → s.drvState = .transmitting ∨ s.drvResult ≠ .noResult
  noSeq : s.seqValid = false

/-- The peripheral word of a Timing Symbol as a number, from the field table of R93 and the cases of R216. -/
def wordOf (ts : TimingSymbol) : Word :=
  if ts.hi = 0 then BitVec.ofNat 32 ((ts.lo - ts.lo / 2) + 65536 * (ts.lo / 2))
  else BitVec.ofNat 32 (ts.hi + 32768 + 65536 * ts.lo)

/-- A Timing Symbol inside the domain of XLATE (R216). -/
def InDomain (ts : TimingSymbol) : Prop :=
  (1 ≤ ts.hi ∧ ts.hi ≤ 32767 ∧ 1 ≤ ts.lo ∧ ts.lo ≤ 32767) ∨ (ts.hi = 0 ∧ 2 ≤ ts.lo ∧ ts.lo ≤ 65534)

/-- The runs a Timing Symbol puts on the pin (R185). -/
def symbolRuns (ts : TimingSymbol) : List WaveItem :=
  if ts.hi = 0 then [.run false (ts.lo - ts.lo / 2), .run false (ts.lo / 2)] else [.run true ts.hi, .run false ts.lo]

/-- The state after a start with the sequence `q` (R171). -/
def started (s : State) (q : List TimingSymbol) : State :=
  { s with
    sb := q.map wordOf
    sbLen := q.length
    txDur := (q.map (fun ts => ts.hi + ts.lo)).sum
    timeout := (q.map (fun ts => ts.hi + ts.lo)).sum + s.cfg.marginTicks
    timer := 0
    done := false
    drvResult := .noResult
    pIdx := 0
    pRun := true
    seq := []
    seqValid := false
    drvState := .transmitting }

/-- What TASK_FINISH reports of a posted DRV_RESULT (R28, R233). -/
def reported : DrvResult → List Result
  | .noResult => []
  | .ok => [.ok]
  | .hardwareTimeout => [.failed .hardwareTimeout]

/-- The strip size is supported and the buffer has its length, so the builder's tests pass (R151). -/
def BuildsFrame (cfg : Config) (c : List Color) : Prop :=
  1 ≤ cfg.n ∧ cfg.n ≤ cfg.nMax ∧ c.length = cfg.n

/-- An operation that neither ends nor cuts a transmission in flight. -/
def leavesInFlight : Instr → Bool
  | .txComplete | .txTimeout | .reset => false
  | .encbit _ | .encbyte _ | .build _ | .attach | .transmit | .chreset | .update _ | .ticks _ | .ticksUp _ | .xlate _ | .tick
  | .pEmit | .hwDone | .taskFinish => true

/-- The sequence a start hands over to the channel: TRANSMIT hands over SEQ (R171), UPDATE and TASK_FINISH the frame they build (R231, R233). -/
def handedOver (s : State) : Instr → List TimingSymbol
  | .transmit => s.seq
  | .update c => frameSymbols s.cfg c
  | .taskFinish => frameSymbols s.cfg s.pend
  | .encbit _ | .encbyte _ | .build _ | .attach | .chreset | .ticks _ | .ticksUp _ | .xlate _ | .tick | .pEmit | .hwDone
  | .txComplete | .txTimeout | .reset => []

/-- The frames the task takes up in a step: that of an UPDATE in IDLE (R232), the pending one of a TASK_FINISH (R233). -/
def takesUp (s : State) : Instr → Nat
  | .update _ => if s.taskState = .idle then 1 else 0
  | .taskFinish => if s.pendValid = true then 1 else 0
  | .encbit _ | .encbyte _ | .build _ | .attach | .transmit | .chreset | .ticks _ | .ticksUp _ | .xlate _ | .tick | .pEmit | .hwDone
  | .txComplete | .txTimeout | .reset => 0

/-- The frames the task takes up along a run. -/
def framesTakenUp : List Instr → State → Nat
  | [], _ => 0
  | i :: is, s =>
    match exec i s with
    | .next t => takesUp s i + framesTakenUp is t
    | .fault _ => 0
    | .refused _ => 0

/-- The frames the task still owes an answer: the one it waits for, if it waits (R24). -/
def awaited (s : State) : Nat :=
  match s.taskState with
  | .idle => 0
  | .transmitting => 1

/-- An operation that may come while the task holds a result it has not reported: it keeps HOST's duty and is neither TASK_FINISH nor RESET. -/
def leavesResult : Instr → Bool
  | .taskFinish | .reset | .build _ | .transmit | .chreset => false
  | .encbit _ | .encbyte _ | .attach | .update _ | .ticks _ | .ticksUp _ | .xlate _ | .tick | .pEmit | .hwDone | .txComplete
  | .txTimeout => true

/-- The 1 bits of a byte. -/
def onesOf (v : Byte) : Nat :=
  ((List.range 8).filter (fun j => v.getLsbD j)).length

/-- The number of 1 bits of a frame, n1 of R172. -/
def frameOnes (cfg : Config) (c : List Color) : Nat :=
  ((wireBytes cfg c).map onesOf).sum

end Sys2Proof.Safety
end

