-- ==== Sys2Proof/Certificates/Slice0/Obligations.lean ====
section
/-! DEFINITION. The statements for the provers. Every one is over every State, hence over every configuration (log 1) and every schedule
(log 3). What an operation returns to its issuer (R13) stands in the model's field `reply`, and `reply := none` says that it returns nothing
(log 6). Where the spec leaves SB's contents unspecified (R31) the statements leave them open too. -/

open Sys2Proof
open Sys2Proof.Machine
open Sys2Proof.Safety

/-! ## The Bit Encoder -/

/-- R130: ENCBIT returns SYM_ZERO for 0 and SYM_ONE for 1, in ticks of the configured rate, and writes no component (R132). -/
def Obligations.EncbitReturnsTheSymbolOfTheBit : Prop :=
  ∀ (b : Bool) (s : State),
    exec (.encbit b) s = .next { s with
      reply := some (.symbol
        (if b = false then
          ⟨(500000000 + s.cfg.t0hNs * s.cfg.fTickHz) / 1000000000, (500000000 + s.cfg.t0lNs * s.cfg.fTickHz) / 1000000000⟩
        else
          ⟨(500000000 + s.cfg.t1hNs * s.cfg.fTickHz) / 1000000000, (500000000 + s.cfg.t1lNs * s.cfg.fTickHz) / 1000000000⟩)) }

/-- R131: ENCBYTE returns eight symbols, element j that of v[7 − j], and writes no component. -/
def Obligations.EncbyteReturnsBitsMostSignificantFirst : Prop :=
  ∀ (v : Byte) (s : State),
    exec (.encbyte v) s = .next { s with
      reply := some (.symbols ((List.range 8).map fun j =>
        if v.toNat / 2 ^ (7 - j) % 2 = 1 then symOne s.cfg else symZero s.cfg)) }

/-- R133: under an admitted configuration both durations of the encoder's symbol are within TOL_NS of the nominal ones. -/
def Obligations.EncoderStaysWithinTolerance : Prop :=
  ∀ (b : Bool) (s : State), admitted s.cfg = true →
    ∃ ts : TimingSymbol,
      exec (.encbit b) s = .next { s with reply := some (.symbol ts) } ∧
      (let h := if b then s.cfg.t1hNs else s.cfg.t0hNs
       let l := if b then s.cfg.t1lNs else s.cfg.t0lNs
       ts.hi * 1000000000 ≤ h * s.cfg.fTickHz + s.cfg.tolNs * s.cfg.fTickHz ∧
       h * s.cfg.fTickHz ≤ ts.hi * 1000000000 + s.cfg.tolNs * s.cfg.fTickHz ∧
       ts.lo * 1000000000 ≤ l * s.cfg.fTickHz + s.cfg.tolNs * s.cfg.fTickHz ∧
       l * s.cfg.fTickHz ≤ ts.lo * 1000000000 + s.cfg.tolNs * s.cfg.fTickHz)

/-- R134: under an admitted configuration t0h < t1h, so the two symbols differ and ENCBIT and ENCBYTE are injective. -/
def Obligations.EncoderIsInjective : Prop :=
  ∀ cfg : Config, admitted cfg = true →
    t0h cfg < t1h cfg ∧ symZero cfg ≠ symOne cfg ∧
      (∀ a b : Bool, encBit cfg a = encBit cfg b → a = b) ∧ (∀ v w : Byte, encByte cfg v = encByte cfg w → v = w)

/-! ## The symbol translator -/

/-- R211: TICKS returns the number of ticks nearest to d nanoseconds, a tie going up: n ≤ d × F / 10^9 + 1/2 < n + 1. -/
def Obligations.TicksReturnsTheNearestCount : Prop :=
  ∀ (d : Nat) (s : State), ∃ n : Nat,
    exec (.ticks d) s = .next { s with reply := some (.count n) } ∧
      2 * (n * 1000000000) ≤ 2 * (d * s.cfg.fTickHz) + 1000000000 ∧
      2 * (d * s.cfg.fTickHz) + 1000000000 < 2 * ((n + 1) * 1000000000)

/-- R212: TICKS_UP returns the least number of ticks lasting at least d nanoseconds. -/
def Obligations.TicksUpReturnsTheLeastSufficientCount : Prop :=
  ∀ (d : Nat) (s : State), ∃ n : Nat,
    exec (.ticksUp d) s = .next { s with reply := some (.count n) } ∧
      d * s.cfg.fTickHz ≤ n * 1000000000 ∧ ∀ m : Nat, d * s.cfg.fTickHz ≤ m * 1000000000 → n ≤ m

/-- R216: the word XLATE returns for a data symbol, for the RESET-symbol, and the refusal of every other symbol. -/
def Obligations.XlateReturnsThePeripheralWord : Prop :=
  (∀ (hi lo : Nat) (s : State), 1 ≤ hi → hi ≤ 32767 → 1 ≤ lo → lo ≤ 32767 →
    ∃ w : Word, exec (.xlate ⟨hi, lo⟩) s = .next { s with reply := some (.word w) } ∧
      w.toNat = hi + 2 ^ 15 + lo * 2 ^ 16) ∧
  (∀ (lo : Nat) (s : State), 2 ≤ lo → lo ≤ 65534 →
    ∃ w : Word, exec (.xlate ⟨0, lo⟩) s = .next { s with reply := some (.word w) } ∧
      w.toNat = (lo - lo / 2) + lo / 2 * 2 ^ 16) ∧
  (∀ (ts : TimingSymbol) (s : State),
    ¬ ((1 ≤ ts.hi ∧ ts.hi ≤ 32767 ∧ 1 ≤ ts.lo ∧ ts.lo ≤ 32767) ∨ (ts.hi = 0 ∧ 2 ≤ ts.lo ∧ ts.lo ≤ 65534)) →
    exec (.xlate ts) s = .refused .symbolOutsideDomain)

/-- R217: a translated word is well-formed (a), keeps the duration (b) and the high time (c), gives the symbol back (d), so XLATE is injective,
and the pin is low after every P_EMIT (e). -/
def Obligations.XlateKeepsDurationAndHighTime : Prop :=
  (∀ (ts : TimingSymbol) (w : Word), xlate ts = some w →
    1 ≤ wordDur0 w ∧ 1 ≤ wordDur1 w ∧ wordLvl1 w = false ∧
      wordDur0 w + wordDur1 w = ts.hi + ts.lo ∧
      (if wordLvl0 w = true then wordDur0 w else 0) = ts.hi ∧
      (if wordLvl0 w = true then (⟨wordDur0 w, wordDur1 w⟩ : TimingSymbol) else ⟨0, wordDur0 w + wordDur1 w⟩) = ts) ∧
  (∀ (a b : TimingSymbol) (w : Word), xlate a = some w → xlate b = some w → a = b) ∧
  (∀ s t : State, exec .pEmit s = .next t → t.line = false)

/-- R215: the configurations the machine runs under are exactly those that meet V1 to V9; under any other every step is refused. -/
def Obligations.AdmittedMeansV1ToV9 : Prop :=
  (∀ cfg : Config,
    let tk := fun d : Nat => (500000000 + d * cfg.fTickHz) / 1000000000
    let tr := (999999999 + cfg.tresetNs * cfg.fTickHz) / 1000000000
    let fits := fun d : Nat => 1 ≤ tk d ∧ tk d ≤ 32767
    let near := fun d : Nat => tk d * 1000000000 ≤ d * cfg.fTickHz + cfg.tolNs * cfg.fTickHz ∧
      d * cfg.fTickHz ≤ tk d * 1000000000 + cfg.tolNs * cfg.fTickHz
    admitted cfg = true ↔
      (cfg.ch = 3 ∨ cfg.ch = 4) ∧
      (cfg.order.length = cfg.ch ∧ (∀ i ∈ cfg.order, i < cfg.ch) ∧ cfg.order.Nodup) ∧
      1 ≤ cfg.fTickHz ∧
      (fits cfg.t0hNs ∧ fits cfg.t0lNs ∧ fits cfg.t1hNs ∧ fits cfg.t1lNs) ∧
      (near cfg.t0hNs ∧ near cfg.t0lNs ∧ near cfg.t1hNs ∧ near cfg.t1lNs) ∧
      tk cfg.t0hNs < tk cfg.t1hNs ∧
      (2 ≤ tr ∧ tr ≤ 65534) ∧
      (1 ≤ cfg.hwDepth ∧ cfg.nMax ≤ 65535) ∧
      cfg.nMax * cfg.ch * 8 * max (tk cfg.t0hNs + tk cfg.t0lNs) (tk cfg.t1hNs + tk cfg.t1lNs) + tr + cfg.marginTicks <
        2 ^ 32 - 1) ∧
  (∀ s : State, admitted s.cfg = false → step s = .refused .configNotAdmitted)

/-! ## The Frame Buffer Builder -/

/-- R151: BUILD raises ConfigurationError for an unsupported strip size or a wrong length, emptying SEQ, and otherwise puts the frame's
symbols in SEQ; nothing else is written, the driver and the channel least of all. -/
def Obligations.BuildWritesTheFrameOrRaises : Prop :=
  ∀ (c : List Color) (s : State), colorsLegal s.cfg c = true →
    ((s.cfg.n = 0 ∨ s.cfg.nMax < s.cfg.n ∨ c.length ≠ s.cfg.n) →
      exec (.build c) s = .next { s with
        seq := [], seqValid := false, reply := some (.result (.failed .configurationError)) }) ∧
    (s.cfg.n ≠ 0 → s.cfg.n ≤ s.cfg.nMax → c.length = s.cfg.n →
      exec (.build c) s = .next { s with
        seq := frameSymbols s.cfg c, seqValid := true, reply := some (.result .ok) })

/-- 30_encoding.md section 4: a command that carries a Color word with ch3 ≠ 0 when CH = 3 is refused, in every state. -/
def Obligations.ReservedColorRefusesTheCommand : Prop :=
  ∀ (c : List Color) (s : State), s.cfg.ch = 3 → (∃ col ∈ c, col.ch3 ≠ 0#8) →
    exec (.build c) s = .refused .reservedColor ∧ exec (.update c) s = .refused .reservedColor

/-- R64, R150: the symbol at k(p, c, j) is that of bit 7 − j of the channel at ORDER[c] of pixel p; the RESET-symbol stands last; and k has
the inverse the rule gives. -/
def Obligations.FrameSymbolsStandAtTheirIndex : Prop :=
  ∀ (cfg : Config) (cb : List Color),
    (frameSymbols cfg cb).length = cb.length * cfg.ch * 8 + 1 ∧
    (frameSymbols cfg cb)[cb.length * cfg.ch * 8]? = some (symReset cfg) ∧
    (∀ (p c j : Nat) (col : Color), cb[p]? = some col → c < cfg.ch → j < 8 →
      (frameSymbols cfg cb)[(p * cfg.ch + c) * 8 + j]? =
        some (if (colorCh col (cfg.order.getD c 0)).toNat / 2 ^ (7 - j) % 2 = 1 then symOne cfg else symZero cfg)) ∧
    (∀ k : Nat, k < cb.length * cfg.ch * 8 →
      k / (8 * cfg.ch) < cb.length ∧ k / 8 % cfg.ch < cfg.ch ∧
        (k / (8 * cfg.ch) * cfg.ch + k / 8 % cfg.ch) * 8 + k % 8 = k)

/-- R152: after a successful BUILD, SEQ has length N × CH × 8 + 1 whatever the colors, and the RESET-symbol stands in it exactly once, last. -/
def Obligations.BuiltFrameHasOneResetSymbolLast : Prop :=
  ∀ (c : List Color) (s t : State), admitted s.cfg = true → exec (.build c) s = .next t → t.reply = some (.result .ok) →
    t.seq.length = s.cfg.n * s.cfg.ch * 8 + 1 ∧ t.seq.getLast? = some (symReset s.cfg) ∧ t.seq.count (symReset s.cfg) = 1

/-- R153: the wire bytes stand in pixel-then-channel order, the data part of the sequence is ENCBYTE over them, and two different legal buffers of one
length give two different sequences. -/
def Obligations.FrameSymbolsAreInjective : Prop :=
  (∀ (cfg : Config) (cb : List Color) (p c : Nat) (col : Color), cb[p]? = some col → c < cfg.ch →
    (wireBytes cfg cb)[p * cfg.ch + c]? = some (colorCh col (cfg.order.getD c 0))) ∧
  (∀ (cfg : Config) (cb : List Color),
    (wireBytes cfg cb).length = cb.length * cfg.ch ∧
      frameSymbols cfg cb = (wireBytes cfg cb).flatMap (encByte cfg) ++ [symReset cfg]) ∧
  (∀ (cfg : Config) (a b : List Color), admitted cfg = true → colorsLegal cfg a = true → colorsLegal cfg b = true →
    a.length = b.length → frameSymbols cfg a = frameSymbols cfg b → a = b)

/-! ## The Transmission Driver and the channel -/

/-- R170: ATTACH before the hand-off sets ATTACHED and drives the pin low; a second ATTACH is refused. -/
def Obligations.AttachHandsTheChannelOverOnce : Prop :=
  ∀ s : State,
    (s.attached = false →
      exec .attach s = .next { s with attached := true, line := false, reply := some (.result .ok) }) ∧
    (s.attached = true → exec .attach s = .refused .alreadyAttached)

/-- R171: TRANSMIT, case by case: refused before ATTACH; ResourceBusy with nothing written; refused without a sequence; BufferOverflow with SEQ
emptied; and the start, with SB loaded word by word. -/
def Obligations.TransmitStartsOrRaises : Prop :=
  ∀ s : State,
    (s.attached = false → exec .transmit s = .refused .notAttached) ∧
    (s.attached = true → s.drvState = .transmitting →
      exec .transmit s = .next { s with reply := some (.result (.failed .resourceBusy)) }) ∧
    (s.attached = true → s.drvState = .idle → s.seqValid = false → exec .transmit s = .refused .noSequence) ∧
    (s.attached = true → s.drvState = .idle → s.seqValid = true → s.cfg.hwDepth < s.seq.length →
      exec .transmit s = .next { s with
        seq := [], seqValid := false, reply := some (.result (.failed .bufferOverflow)) }) ∧
    (s.attached = true → s.drvState = .idle → s.seqValid = true → s.seq.length ≤ s.cfg.hwDepth →
      (∀ ts ∈ s.seq, InDomain ts) →
      exec .transmit s = .next { started s s.seq with reply := some .started })

/-- The model's choice (log 13), in states the invariant rules out: a TRANSMIT that would start is refused, with none of its writes, where XLATE of a symbol
of SEQ is outside its domain. The spec's own TRANSMIT never meets such a symbol. -/
def Obligations.TransmitRefusesASymbolOutsideTheDomain : Prop :=
  ∀ s : State, s.attached = true → s.drvState = .idle → s.seqValid = true → s.seq.length ≤ s.cfg.hwDepth →
    (∃ ts ∈ s.seq, ¬ InDomain ts) → exec .transmit s = .refused .symbolOutsideDomain

/-- R172: a started frame's TX_DUR is n0 × (t0h + t0l) + n1 × (t1h + t1l) + treset, with n1 the frame's 1 bits and n0 its 0 bits, and TIMEOUT
is TX_DUR + MARGIN_TICKS. -/
def Obligations.TimeoutIsTheFrameDurationPlusMargin : Prop :=
  ∀ (c : List Color) (s t : State), c.length = s.cfg.n → s.seq = frameSymbols s.cfg c → s.drvState = .idle →
    exec .transmit s = .next t → t.drvState = .transmitting →
    ∃ n0 : Nat, n0 + frameOnes s.cfg c = s.cfg.n * s.cfg.ch * 8 ∧
      t.txDur = n0 * (t0h s.cfg + t0l s.cfg) + frameOnes s.cfg c * (t1h s.cfg + t1l s.cfg) + treset s.cfg ∧
      t.timeout = t.txDur + s.cfg.marginTicks

/-- R182: CHRESET of an idle driver carries out the channel reset of R181, and in a state that meets the invariant changes no component; it
is refused before ATTACH and while a transmission is in flight. -/
def Obligations.ChresetResetsAnIdleChannel : Prop :=
  ∀ s : State,
    (s.attached = false → exec .chreset s = .refused .notAttached) ∧
    (s.attached = true → s.drvState = .transmitting → exec .chreset s = .refused .transmissionInFlight) ∧
    (s.attached = true → s.drvState = .idle → ∃ words : List Word,
      exec .chreset s = .next { s with
        wave := if s.pRun = true then s.wave ++ [.abort] else s.wave
        pRun := false, pIdx := 0, sb := words, sbLen := 0, done := false, line := false
        reply := some (.result .ok) }) ∧
    (Inv s → s.attached = true → s.drvState = .idle →
      exec .chreset s = .next { s with reply := some (.result .ok) })

/-- R176: TICK is always enabled, counts NOW, and moves TIMER only while the driver is TRANSMITTING, saturating at 2^32 − 1. -/
def Obligations.TickAdvancesTimeAndSaturates : Prop :=
  ∀ s : State,
    exec .tick s = .next { s with
      now := s.now + 1
      timer := if s.drvState = .transmitting then min (s.timer + 1) (2 ^ 32 - 1) else s.timer
      reply := none }

/-- R177: P_EMIT, enabled by P_RUN, P_IDX < SB_LEN and TIMER ≥ S(P_IDX + 1), appends the word's two runs, first half first, and moves P_IDX by one;
otherwise it is not enabled; and in a state that meets the invariant an enabled P_EMIT is always a step. -/
def Obligations.PEmitSendsTheNextSymbol : Prop :=
  (∀ (s : State) (w : Word), s.pRun = true → s.pIdx < s.sbLen →
    ((s.sb.take (s.pIdx + 1)).map fun x => wordDur0 x + wordDur1 x).sum ≤ s.timer →
    s.sb[s.pIdx]? = some w → 1 ≤ wordDur0 w → 1 ≤ wordDur1 w → wordLvl1 w = false →
    exec .pEmit s = .next { s with
      wave := s.wave ++ [.run (wordLvl0 w) (wordDur0 w), .run (wordLvl1 w) (wordDur1 w)]
      line := wordLvl1 w
      pIdx := s.pIdx + 1
      reply := none }) ∧
  (∀ s : State,
    ¬ (s.pRun = true ∧ s.pIdx < s.sbLen ∧
      ((s.sb.take (s.pIdx + 1)).map fun x => wordDur0 x + wordDur1 x).sum ≤ s.timer) →
    exec .pEmit s = .refused .pEmitNotEnabled) ∧
  (∀ s : State, Inv s → s.pRun = true → s.pIdx < s.sbLen →
    ((s.sb.take (s.pIdx + 1)).map fun x => wordDur0 x + wordDur1 x).sum ≤ s.timer →
    ∃ t, exec .pEmit s = .next t)

/-- R178: HW_DONE, enabled by P_RUN and P_IDX = SB_LEN, sets DONE, clears P_RUN and leaves the pin low; otherwise it is not enabled; and it is
never taken before TX_DUR ticks have passed. -/
def Obligations.HwDoneReportsAfterTheLastSymbol : Prop :=
  (∀ s : State, s.pRun = true → s.pIdx = s.sbLen →
    exec .hwDone s = .next { s with done := true, pRun := false, line := false, reply := none }) ∧
  (∀ s : State, ¬ (s.pRun = true ∧ s.pIdx = s.sbLen) → exec .hwDone s = .refused .hwDoneNotEnabled) ∧
  (∀ s t : State, Inv s → exec .hwDone s = .next t → s.txDur ≤ s.timer)

/-- R179: TX_COMPLETE, enabled by DRV_STATE = TRANSMITTING and DONE = 1 whatever TIMER says, posts OK and discards the sequence; otherwise it
is not enabled. -/
def Obligations.TxCompletePostsOk : Prop :=
  ∀ s : State,
    (s.drvState = .transmitting → s.done = true → ∃ words : List Word,
      exec .txComplete s = .next { s with
        drvResult := .ok, sb := words, sbLen := 0, pIdx := 0, done := false, drvState := .idle, reply := none }) ∧
    (¬ (s.drvState = .transmitting ∧ s.done = true) → exec .txComplete s = .refused .txCompleteNotEnabled)

/-- R180: TX_TIMEOUT, enabled by DRV_STATE = TRANSMITTING, DONE = 0 and TIMER > TIMEOUT, posts HardwareTimeout and resets the channel; otherwise
it is not enabled (TIMER = TIMEOUT is in time); and past the timeout exactly one of the two end events is enabled. -/
def Obligations.TxTimeoutPostsAndResets : Prop :=
  ∀ s : State,
    (s.drvState = .transmitting → s.done = false → s.timeout < s.timer → ∃ words : List Word,
      exec .txTimeout s = .next { s with
        drvResult := .hardwareTimeout
        wave := if s.pRun = true then s.wave ++ [.abort] else s.wave
        pRun := false, pIdx := 0, sb := words, sbLen := 0, done := false, line := false
        drvState := .idle
        reply := none }) ∧
    (¬ (s.drvState = .transmitting ∧ s.done = false ∧ s.timeout < s.timer) →
      exec .txTimeout s = .refused .txTimeoutNotEnabled) ∧
    (s.drvState = .transmitting → s.timeout < s.timer →
      ((∃ t, exec .txComplete s = .next t) ∧ exec .txTimeout s = .refused .txTimeoutNotEnabled) ∨
      ((∃ t, exec .txTimeout s = .next t) ∧ exec .txComplete s = .refused .txCompleteNotEnabled))

/-! ## The LED Task -/

/-- R231, R232: UPDATE, case by case: refused before ATTACH; pended while TRANSMITTING, touching nothing else; and in IDLE each outcome of
start_frame: ConfigurationError, ResourceBusy, BufferOverflow reported to RESP, or the frame started. -/
def Obligations.UpdateStartsPendsOrReports : Prop :=
  ∀ (c : List Color) (s : State), colorsLegal s.cfg c = true →
    (s.attached = false → exec (.update c) s = .refused .notAttached) ∧
    (s.attached = true → s.taskState = .transmitting →
      exec (.update c) s = .next { s with pend := c, pendValid := true, reply := none }) ∧
    (s.attached = true → s.taskState = .idle → ¬ BuildsFrame s.cfg c →
      exec (.update c) s = .next { s with
        seq := [], seqValid := false, resp := s.resp ++ [.failed .configurationError], reply := none }) ∧
    (s.attached = true → s.taskState = .idle → BuildsFrame s.cfg c → s.drvState = .transmitting →
      exec (.update c) s = .next { s with
        seq := [], seqValid := false, resp := s.resp ++ [.failed .resourceBusy], reply := none }) ∧
    (s.attached = true → s.taskState = .idle → BuildsFrame s.cfg c → s.drvState = .idle →
      s.cfg.hwDepth < s.cfg.n * s.cfg.ch * 8 + 1 →
      exec (.update c) s = .next { s with
        seq := [], seqValid := false, resp := s.resp ++ [.failed .bufferOverflow], reply := none }) ∧
    (s.attached = true → s.taskState = .idle → BuildsFrame s.cfg c → s.drvState = .idle →
      s.cfg.n * s.cfg.ch * 8 + 1 ≤ s.cfg.hwDepth → admitted s.cfg = true →
      exec (.update c) s = .next { started s (frameSymbols s.cfg c) with taskState := .transmitting, reply := none })

/-- R234: of two requests during a transmission only the later is kept: it is as if the earlier had not been made, and neither is answered. -/
def Obligations.LaterRequestSupersedesThePendingOne : Prop :=
  ∀ (a b : List Color) (s : State), s.attached = true → s.taskState = .transmitting →
    colorsLegal s.cfg a = true → colorsLegal s.cfg b = true →
    ∃ t : State, exec (.update b) s = .next t ∧ execAll [.update a, .update b] s = .next t ∧
      t.pend = b ∧ t.pendValid = true ∧ t.resp = s.resp

/-- R233: TASK_FINISH, case by case: not enabled; no pending frame; and with a pending frame each outcome of starting it, in the one step, the
finished frame's result first in RESP. -/
def Obligations.TaskFinishReportsThenStartsThePendingFrame : Prop :=
  ∀ s : State,
    (¬ (s.taskState = .transmitting ∧ s.drvState = .idle ∧ s.drvResult ≠ .noResult) →
      exec .taskFinish s = .refused .taskFinishNotEnabled) ∧
    (s.taskState = .transmitting → s.drvState = .idle → s.drvResult ≠ .noResult → s.pendValid = false →
      exec .taskFinish s = .next { s with
        resp := s.resp ++ reported s.drvResult, drvResult := .noResult, taskState := .idle, reply := none }) ∧
    (s.taskState = .transmitting → s.drvState = .idle → s.drvResult ≠ .noResult → s.pendValid = true →
      ¬ BuildsFrame s.cfg s.pend →
      exec .taskFinish s = .next { s with
        resp := s.resp ++ reported s.drvResult ++ [.failed .configurationError]
        drvResult := .noResult, taskState := .idle, pend := [], pendValid := false
        seq := [], seqValid := false, reply := none }) ∧
    (s.taskState = .transmitting → s.drvState = .idle → s.drvResult ≠ .noResult → s.pendValid = true → s.attached = true →
      BuildsFrame s.cfg s.pend → s.cfg.hwDepth < s.cfg.n * s.cfg.ch * 8 + 1 →
      exec .taskFinish s = .next { s with
        resp := s.resp ++ reported s.drvResult ++ [.failed .bufferOverflow]
        drvResult := .noResult, taskState := .idle, pend := [], pendValid := false
        seq := [], seqValid := false, reply := none }) ∧
    (s.taskState = .transmitting → s.drvState = .idle → s.drvResult ≠ .noResult → s.pendValid = true → s.attached = true →
      BuildsFrame s.cfg s.pend → s.cfg.n * s.cfg.ch * 8 + 1 ≤ s.cfg.hwDepth → admitted s.cfg = true →
      exec .taskFinish s = .next { started s (frameSymbols s.cfg s.pend) with
        resp := s.resp ++ reported s.drvResult
        taskState := .transmitting, pend := [], pendValid := false, reply := none })

/-- R175, R299: with the task and the driver idle, a frame of the configured length is started exactly when 1 ≤ N ≤ N_FIT. -/
def Obligations.FrameIsSentExactlyUpToNFit : Prop :=
  ∀ (c : List Color) (s : State), admitted s.cfg = true → s.attached = true → s.taskState = .idle → s.drvState = .idle →
    colorsLegal s.cfg c = true → c.length = s.cfg.n →
    ((∃ t, exec (.update c) s = .next t ∧ t.drvState = .transmitting) ↔
      1 ≤ s.cfg.n ∧ s.cfg.n ≤ min s.cfg.nMax ((s.cfg.hwDepth - 1) / (s.cfg.ch * 8)))

/-- 44_led_task.md section 3 (self-healing): in a state that meets the invariant UPDATE is refused only before ATTACH, and if it reports a failure the
task is IDLE with SEQ empty. -/
def Obligations.UpdateIsNeverWedged : Prop :=
  ∀ (c : List Color) (s : State), Inv s → s.attached = true → colorsLegal s.cfg c = true →
    ∃ t, exec (.update c) s = .next t ∧ (t.resp ≠ s.resp → t.taskState = .idle ∧ t.seqValid = false ∧ t.seq = [])

/-! ## Reset -/

/-- R290: RESET is always enabled and gives every component its reset value, SB's contents unspecified; CFG is no component and stays (R8). What becomes
of the model's own port and schedule is left open here (log 14). -/
def Obligations.ResetGivesEveryComponentItsValue : Prop :=
  ∀ s : State, ∃ (words words' : List Word) (slots : List Slot),
    exec .reset s = .next {
      cfg := s.cfg, attached := false, taskState := .idle, pendValid := false, pend := [], seqValid := false, seq := []
      drvState := .idle, drvResult := .noResult, timer := 0, timeout := 0, txDur := 0, done := false
      sb := words, sbLen := 0, pRun := false, pIdx := 0, line := false, wave := [], now := 0, resp := []
      reply := none, port := words', sched := slots }

/-- R46: the values of the components of the machine right after reset, and their numbers in the view of R41. -/
def Obligations.ResetStateHasTheTabulatedValues : Prop :=
  (State.reset.attached = false ∧ State.reset.taskState = .idle ∧ State.reset.pendValid = false ∧ State.reset.pend = [] ∧
    State.reset.seqValid = false ∧ State.reset.seq = [] ∧ State.reset.drvState = .idle ∧
    State.reset.drvResult = .noResult ∧ State.reset.timer = 0 ∧ State.reset.timeout = 0 ∧ State.reset.txDur = 0 ∧
    State.reset.done = false ∧ State.reset.sbLen = 0 ∧ State.reset.pRun = false ∧ State.reset.pIdx = 0 ∧
    State.reset.line = false ∧ State.reset.wave = [] ∧ State.reset.resp = [] ∧ State.reset.now = 0) ∧
  (List.range 16).map (component State.reset) =
    [some 0, some 0, some 0, some 0, some 0, some 0, some 0, some 0xFF, some 0, some 0, some 0, some 0, some 0, some 0,
      some 0, some 0]

/-- The invariants hold after reset, under every admitted configuration, and in State.reset itself. -/
def Obligations.ResetMeetsTheInvariants : Prop :=
  (∀ cfg : Config, admitted cfg = true → Inv (State.resetWith cfg) ∧ TaskForm (State.resetWith cfg)) ∧
    Inv State.reset ∧ TaskForm State.reset

/-! ## Encoding -/

/-- Decoding the encoded form of an operation whose operand fits LEN gives the operation, and a command leaves the words after it on the
port. -/
def Obligations.DecodeOfEncodeIsTheOperation : Prop :=
  (∀ i : Instr, i.lenFits = true → decode (encode i) = .ok i) ∧
  (∀ (i : Instr) (words rest : List Word), i.lenFits = true → encode i = .command words →
    decodeCommand (words ++ rest) = .ok (i, rest))

/-- Every encoded form has one meaning: what decodes to an operation is that operation's encoding, and its operand fits LEN. -/
def Obligations.EncodeOfDecodeIsTheEncodedForm : Prop :=
  ∀ (e : Encoded) (i : Instr), decode e = .ok i → encode i = e ∧ i.lenFits = true

/-- R100: a command word matched by no row of R96, each row given by its mask and pattern, is rejected, and the step that would take it is
refused. -/
def Obligations.ReservedCommandWordsAreRefused : Prop :=
  ∀ (w : Word) (rest : List Word),
    ¬ (w &&& 0xFFFFFFFE#32 = 0x01000000#32 ∨ w &&& 0xFFFFFF00#32 = 0x02000000#32 ∨ w &&& 0xFFFF0000#32 = 0x10000000#32 ∨
      w = 0x20000000#32 ∨ w = 0x21000000#32 ∨ w = 0x22000000#32 ∨ w &&& 0xFFFF0000#32 = 0x30000000#32) →
    decodeCommand (w :: rest) = .error (.reservedCommand w) ∧
      ∀ (s : State) (slots : List Slot), admitted s.cfg = true → s.sched = .command :: slots → s.port = w :: rest →
        step s = .refused .notDecodable

/-- Words written out from R91 and R96, and every label of R97, decode to the operations they stand for. How a label's operands stand beside it is the
model's choice (log 5). -/
def Obligations.WrittenOutWordsDecode : Prop :=
  decode (.command [0b00000001000000000000000000000001#32]) = .ok (.encbit true) ∧
  decode (.command [0b00000010000000000000000010100101#32]) = .ok (.encbyte 0xA5#8) ∧
  decode (.command [0b00010000000000000000000000000001#32, 0x00030201#32]) = .ok (.build [⟨1, 2, 3, 0⟩]) ∧
  decode (.command [0b00100000000000000000000000000000#32]) = .ok .attach ∧
  decode (.command [0b00100001000000000000000000000000#32]) = .ok .transmit ∧
  decode (.command [0b00100010000000000000000000000000#32]) = .ok .chreset ∧
  decode (.command [0b00110000000000000000000000000001#32, 0x04030201#32]) = .ok (.update [⟨1, 2, 3, 4⟩]) ∧
  decode (.label 0b10000000#8 [350]) = .ok (.ticks 350) ∧
  decode (.label 0b10000001#8 [50000]) = .ok (.ticksUp 50000) ∧
  decode (.label 0b10000010#8 [28, 64]) = .ok (.xlate ⟨28, 64⟩) ∧
  decode (.label 0b11000000#8 []) = .ok .tick ∧
  decode (.label 0b11000001#8 []) = .ok .pEmit ∧
  decode (.label 0b11000010#8 []) = .ok .hwDone ∧
  decode (.label 0b11000011#8 []) = .ok .txComplete ∧
  decode (.label 0b11000100#8 []) = .ok .txTimeout ∧
  decode (.label 0b11000101#8 []) = .ok .taskFinish ∧
  decode (.label 0b11001111#8 []) = .ok .reset

/-! ## The step -/

/-- How the model takes its steps: under an admitted configuration a step is the scheduled operation at the state with it taken off the schedule, and a
command's words off the port; with nothing scheduled there is no step. The spec has atomic steps in an open order; the schedule (log 3) and the port
(log 4) that hold that order and the words are the model's choice. -/
def Obligations.StepRunsTheScheduledOperation : Prop :=
  ∀ (s : State) (i : Instr) (slots : List Slot), admitted s.cfg = true →
    (∀ rest : List Word, s.sched = .command :: slots → decodeCommand s.port = .ok (i, rest) →
      step s = exec i { s with sched := slots, port := rest }) ∧
    (∀ (id : Byte) (operands : List Nat), s.sched = .label id operands :: slots → decodeLabel id operands = .ok i →
      step s = exec i { s with sched := slots }) ∧
    (s.sched = [] → step s = .refused .scheduleEmpty)

/-- How the model is given a program: an operation placed by its table bits is the very next step, and nothing else is changed by placing it. Placing it in
front of the schedule (log 3) and the port (log 4), with a label's operands 0 (log 5), is the model's choice. -/
def Obligations.PlacedOperationIsTheNextStep : Prop :=
  ∀ (s : State) (nbits w : Nat) (i : Instr), admitted s.cfg = true → decodeTableWord nbits w = some i →
    step (s.withFetchWord nbits w) = exec i s

/-! ## Invariants and whole-machine rules -/

/-- Every step keeps the invariant (R44 with no premise on HOST), from every state that meets it. -/
def Obligations.StepKeepsTheInvariant : Prop :=
  ∀ s t : State, Inv s → step s = .next t → Inv t

/-- Every step that keeps HOST's duty (R303.2) keeps the task-level invariant (R44 clause 5). -/
def Obligations.DutifulStepKeepsTheTaskForm : Prop :=
  ∀ (s s' t : State) (i : Instr), Inv s → TaskForm s → fetch s = .ok (i, s') → keepsDuty i = true → step s = .next t →
    TaskForm t

/-- R40: which operations set and which clear each flag of the table. UPDATE and TASK_FINISH carry out start_frame, hence BUILD and TRANSMIT; TX_TIMEOUT and
CHRESET carry out the channel reset; RESET clears TASK_STATE too (R290). -/
def Obligations.FlagsAreSetAndClearedAsListed : Prop :=
  ∀ (i : Instr) (s t : State), exec i s = .next t →
    (s.attached = false → t.attached = true → i.mnemonic ∈ ["ATTACH"]) ∧
    (s.attached = true → t.attached = false → i.mnemonic ∈ ["RESET"]) ∧
    (s.taskState = .idle → t.taskState = .transmitting → i.mnemonic ∈ ["UPDATE", "TASK_FINISH"]) ∧
    (s.taskState = .transmitting → t.taskState = .idle → i.mnemonic ∈ ["TASK_FINISH", "RESET"]) ∧
    (s.pendValid = false → t.pendValid = true → i.mnemonic ∈ ["UPDATE"]) ∧
    (s.pendValid = true → t.pendValid = false → i.mnemonic ∈ ["TASK_FINISH", "RESET"]) ∧
    (s.seqValid = false → t.seqValid = true → i.mnemonic ∈ ["BUILD"]) ∧
    (s.seqValid = true → t.seqValid = false → i.mnemonic ∈ ["BUILD", "TRANSMIT", "UPDATE", "TASK_FINISH", "RESET"]) ∧
    (s.drvState = .idle → t.drvState = .transmitting → i.mnemonic ∈ ["TRANSMIT", "UPDATE", "TASK_FINISH"]) ∧
    (s.drvState = .transmitting → t.drvState = .idle → i.mnemonic ∈ ["TX_COMPLETE", "TX_TIMEOUT", "RESET"]) ∧
    (s.done = false → t.done = true → i.mnemonic ∈ ["HW_DONE"]) ∧
    (s.done = true → t.done = false →
      i.mnemonic ∈ ["TRANSMIT", "UPDATE", "TASK_FINISH", "TX_COMPLETE", "TX_TIMEOUT", "CHRESET", "RESET"]) ∧
    (s.pRun = false → t.pRun = true → i.mnemonic ∈ ["TRANSMIT", "UPDATE", "TASK_FINISH"]) ∧
    (s.pRun = true → t.pRun = false → i.mnemonic ∈ ["HW_DONE", "TX_TIMEOUT", "CHRESET", "RESET"])

/-- 10_state.md section 4: no operation writes a component other than those the tables and the operation's own rule list for it (UPDATE and TASK_FINISH write
what BUILD and TRANSMIT write, TX_TIMEOUT what the channel reset writes), and CFG never changes. The last clause's rest is the model's choice: no operation
writes the model's own port and schedule (log 3, log 4), and RESET too leaves them (log 14). -/
def Obligations.OnlyListedOperationsWriteAComponent : Prop :=
  ∀ (i : Instr) (s t : State), exec i s = .next t →
    (t.attached = s.attached ∨ i.mnemonic ∈ ["ATTACH", "RESET"]) ∧
    (t.taskState = s.taskState ∨ i.mnemonic ∈ ["UPDATE", "TASK_FINISH", "RESET"]) ∧
    ((t.pendValid = s.pendValid ∧ t.pend = s.pend) ∨ i.mnemonic ∈ ["UPDATE", "TASK_FINISH", "RESET"]) ∧
    ((t.seqValid = s.seqValid ∧ t.seq = s.seq) ∨ i.mnemonic ∈ ["BUILD", "TRANSMIT", "UPDATE", "TASK_FINISH", "RESET"]) ∧
    ((t.drvState = s.drvState ∧ t.drvResult = s.drvResult) ∨
      i.mnemonic ∈ ["TRANSMIT", "UPDATE", "TX_COMPLETE", "TX_TIMEOUT", "TASK_FINISH", "RESET"]) ∧
    (t.timer = s.timer ∨ i.mnemonic ∈ ["TRANSMIT", "UPDATE", "TASK_FINISH", "TICK", "RESET"]) ∧
    ((t.timeout = s.timeout ∧ t.txDur = s.txDur) ∨ i.mnemonic ∈ ["TRANSMIT", "UPDATE", "TASK_FINISH", "RESET"]) ∧
    (t.done = s.done ∨
      i.mnemonic ∈ ["HW_DONE", "TRANSMIT", "UPDATE", "TASK_FINISH", "TX_COMPLETE", "TX_TIMEOUT", "CHRESET", "RESET"]) ∧
    ((t.sb = s.sb ∧ t.sbLen = s.sbLen) ∨
      i.mnemonic ∈ ["TRANSMIT", "UPDATE", "TASK_FINISH", "TX_COMPLETE", "TX_TIMEOUT", "CHRESET", "RESET"]) ∧
    (t.pRun = s.pRun ∨ i.mnemonic ∈ ["TRANSMIT", "UPDATE", "TASK_FINISH", "HW_DONE", "TX_TIMEOUT", "CHRESET", "RESET"]) ∧
    (t.pIdx = s.pIdx ∨
      i.mnemonic ∈ ["TRANSMIT", "UPDATE", "TASK_FINISH", "P_EMIT", "TX_COMPLETE", "TX_TIMEOUT", "CHRESET", "RESET"]) ∧
    (t.line = s.line ∨ i.mnemonic ∈ ["ATTACH", "P_EMIT", "HW_DONE", "TX_TIMEOUT", "CHRESET", "RESET"]) ∧
    (t.wave = s.wave ∨ i.mnemonic ∈ ["P_EMIT", "TX_TIMEOUT", "CHRESET", "RESET"]) ∧
    (t.now = s.now ∨ i.mnemonic ∈ ["TICK", "RESET"]) ∧
    (t.resp = s.resp ∨ i.mnemonic ∈ ["UPDATE", "TASK_FINISH", "RESET"]) ∧
    (t.cfg = s.cfg ∧ t.port = s.port ∧ t.sched = s.sched)

/-- R174: the channel starts running only by a start that found the driver idle: "no two transmissions overlap"; and a second TRANSMIT while one is
in flight yields ResourceBusy, writing nothing. -/
def Obligations.NoTwoTransmissionsOverlap : Prop :=
  (∀ (i : Instr) (s t : State), Inv s → exec i s = .next t → t.pRun = true →
    s.pRun = true ∨
      (s.drvState = .idle ∧ s.pRun = false ∧ i.mnemonic ∈ ["TRANSMIT", "UPDATE", "TASK_FINISH"])) ∧
  (∀ s : State, Inv s → s.drvState = .transmitting →
    exec .transmit s = .next { s with reply := some (.result (.failed .resourceBusy)) })

/-- R236, R296: no operation but its two end events and RESET stops a transmission in flight or touches what it sends: SB and its length, TX_DUR,
TIMEOUT stay, and progress and time only go forward; CHRESET is refused; and TX_TIMEOUT cuts one short only if the channel failed to report in time. -/
def Obligations.NothingStopsATransmissionInFlight : Prop :=
  (∀ (i : Instr) (s t : State), Inv s → s.drvState = .transmitting → leavesInFlight i = true → exec i s = .next t →
    t.drvState = .transmitting ∧ t.drvResult = s.drvResult ∧ t.sb = s.sb ∧ t.sbLen = s.sbLen ∧ t.txDur = s.txDur ∧
      t.timeout = s.timeout ∧ s.pIdx ≤ t.pIdx ∧ s.timer ≤ t.timer ∧ s.wave <+: t.wave ∧ (s.done = true → t.done = true)) ∧
  (∀ s : State, Inv s → s.drvState = .transmitting → exec .chreset s = .refused .transmissionInFlight) ∧
  (∀ s t : State, Inv s → exec .txTimeout s = .next t → s.done = false ∧ s.timeout < s.timer) ∧
  (∀ s t : State, Inv s → exec .txComplete s = .next t → s.pIdx = s.sbLen)

/-- R188: while the driver is TRANSMITTING, the agents DRV and TASK have no step but the two end events. -/
def Obligations.DriverAndTaskOnlyWait : Prop :=
  ∀ (i : Instr) (s t : State), s.drvState = .transmitting → exec i s = .next t →
    (i.agent = some .drv ∨ i.agent = some .task) → i = .txComplete ∨ i = .txTimeout

/-- 42_transmission_driver.md section 5: what a completed transmission appends to WAVE, whatever else happens before its TX_COMPLETE. From any state in flight,
the runs of the words still to be sent, in order; from the start, be it by TRANSMIT, UPDATE or TASK_FINISH, the runs of the sequence handed over. No
Abort is among them. -/
def Obligations.CompletedTransmissionSendsExactlyItsSequence : Prop :=
  (∀ (s u v : State) (between : List Instr), Inv s → s.drvState = .transmitting →
    (∀ i ∈ between, leavesInFlight i = true) → execAll between s = .next u → exec .txComplete u = .next v →
    v.wave = s.wave ++ (s.sb.drop s.pIdx).flatMap wordRuns) ∧
  (∀ (start : Instr) (s t u v : State) (between : List Instr), Inv s → s.drvState = .idle → exec start s = .next t →
    t.drvState = .transmitting → (∀ i ∈ between, leavesInFlight i = true) → execAll between t = .next u →
    exec .txComplete u = .next v →
    v.wave = s.wave ++ (handedOver s start).flatMap symbolRuns)

/-- 42_transmission_driver.md section 5 (HEALTHY): while TIMER ≤ TIMEOUT a timeout cannot strike; once HW_DONE has been taken it can never strike, however
late the driver looks, and TX_COMPLETE posts OK. -/
def Obligations.HealthyTransmissionCannotTimeOut : Prop :=
  (∀ s : State, s.timer ≤ s.timeout → exec .txTimeout s = .refused .txTimeoutNotEnabled) ∧
  (∀ (s t u : State) (between : List Instr), Inv s → exec .hwDone s = .next t →
    (∀ i ∈ between, leavesInFlight i = true) → execAll between t = .next u →
    exec .txTimeout u = .refused .txTimeoutNotEnabled ∧ ∃ v, exec .txComplete u = .next v ∧ v.drvResult = .ok)

/-- 30_encoding.md section 5 (DRAIN), 42_transmission_driver.md section 5 (EXACT): from every state that meets the invariant and where DRAIN is legal, which
is while the channel runs, the healthy channel emits the rest of the frame at the programmed times and the driver posts OK. -/
def Obligations.DrainCompletesTheTransmission : Prop :=
  ∀ s : State, Inv s → drainLegal s = true →
    ∃ t, execAll (drain s) s = .next t ∧ t.drvState = .idle ∧ t.drvResult = .ok ∧ t.timer = max s.timer s.txDur ∧
      t.now = s.now + (s.txDur - s.timer) ∧ t.wave = s.wave ++ (s.sb.drop s.pIdx).flatMap wordRuns ∧
      t.resp = s.resp ∧ t.taskState = s.taskState ∧ t.pend = s.pend

/-- 30_encoding.md section 5 (STALL), 42_transmission_driver.md section 4: a channel that never reports is given up after TIMEOUT + 1 ticks, and the channel is
reset. -/
def Obligations.StalledTransmissionTimesOut : Prop :=
  ∀ s : State, Inv s → stallLegal s = true →
    ∃ t, execAll (stall s) s = .next t ∧ t.drvState = .idle ∧ t.drvResult = .hardwareTimeout ∧
      t.now = s.now + (s.timeout + 1 - s.timer) ∧ t.timer = s.timeout + 1 ∧ t.pRun = false ∧ t.sbLen = 0 ∧ t.pIdx = 0 ∧
      t.done = false ∧ t.line = false ∧ t.wave = (if s.pRun = true then s.wave ++ [.abort] else s.wave)

/-- 60_exceptions.md section 6, 44_led_task.md section 3: a waiting task can always be brought to its answer, by some list of at most TIMEOUT + 3 steps of the
clock, the driver and the task alone. The answer is one entry, OK or HardwareTimeout; a pending frame is then in flight or has its own one entry. -/
def Obligations.StartedFrameCanBeBroughtToItsAnswer : Prop :=
  ∀ s : State, Inv s → TaskForm s → s.taskState = .transmitting →
    ∃ (steps : List Instr) (t : State) (r : Result) (more : List Result),
      steps.length ≤ s.timeout + 3 ∧
      (∀ i ∈ steps, i = .tick ∨ i = .txComplete ∨ i = .txTimeout ∨ i = .taskFinish) ∧
      execAll steps s = .next t ∧ t.resp = s.resp ++ r :: more ∧ (r = .ok ∨ r = .failed .hardwareTimeout) ∧
      (s.pendValid = false → more = [] ∧ t.taskState = .idle) ∧
      (s.pendValid = true → (more = [] ∧ t.taskState = .transmitting) ∨ ((∃ f, more = [.failed f]) ∧ t.taskState = .idle))

/-- 60_exceptions.md section 6 ("exactly one entry in RESP"), 10_state.md section 5: along every run without RESET, RESP only grows, and its entries with the
frame still waited for are exactly the frames the task has taken up. -/
def Obligations.EveryFrameTakenUpGetsOneEntry : Prop :=
  ∀ (steps : List Instr) (s t : State), (∀ i ∈ steps, i ≠ .reset) → execAll steps s = .next t →
    s.resp <+: t.resp ∧ t.resp.length + awaited t = s.resp.length + awaited s + framesTakenUp steps s

/-- 60_exceptions.md section 6 (LIVE), 44_led_task.md section 3: no schedule puts the answer off. In every run that leaves the transmission in flight, once more
than TIMEOUT ticks have passed, the driver's end event is enabled; and with the result posted, TASK_FINISH stays enabled, whatever HOST, within its duty, and
the other agents do, until it reports that result. -/
def Obligations.EveryWaitEndsOnceTheTimeoutHasPassed : Prop :=
  (∀ (s u : State) (between : List Instr), Inv s → s.drvState = .transmitting → (∀ i ∈ between, leavesInFlight i = true) →
    execAll between s = .next u → s.timeout < s.timer + between.count .tick →
    ∃ v, (exec .txComplete u = .next v ∨ exec .txTimeout u = .next v) ∧
      v.drvState = .idle ∧ v.drvResult ≠ .noResult ∧ v.taskState = u.taskState) ∧
  (∀ (s u : State) (waiting : List Instr), Inv s → s.taskState = .transmitting → s.drvState = .idle → s.drvResult ≠ .noResult →
    (∀ i ∈ waiting, leavesResult i = true) → execAll waiting s = .next u →
    u.resp = s.resp ∧ ∃ (v : State) (more : List Result),
      exec .taskFinish u = .next v ∧ v.resp = s.resp ++ reported s.drvResult ++ more ∧ more.length ≤ 1)
end

