-- ==== Sys2Proof/Laws/Encoding.lean ====
section
/-! SUPPORT. The parts of the encoding: Color words and the Color words that follow a command. -/

namespace Sys2Proof

@[simp] theorem colorOfWord_wordOfColor (c : Color) : colorOfWord (wordOfColor c) = c := by
  obtain ⟨a, b, d, e⟩ := c
  simp only [colorOfWord, wordOfColor, Color.mk.injEq]
  refine ⟨?_, ?_, ?_, ?_⟩ <;>
    · apply BitVec.eq_of_getLsbD_eq
      intro i hi
      simp only [BitVec.getLsbD_extractLsb', BitVec.getLsbD_append]
      interval_cases i <;> simp

@[simp] theorem wordOfColor_colorOfWord (w : Word) : wordOfColor (colorOfWord w) = w := by
  apply BitVec.eq_of_getLsbD_eq
  intro i hi
  simp only [colorOfWord, wordOfColor, BitVec.getLsbD_append, BitVec.getLsbD_extractLsb']
  interval_cases i <;> simp

/-- Reading the Color words of a list gives the list, and what follows is left over (R98). -/
theorem takeColors_map (c : List Color) (rest : List Word) :
    takeColors c.length (c.map wordOfColor ++ rest) = some (c, rest) := by
  induction c with
  | nil => rfl
  | cons a c ih => simp [takeColors, ih]

/-- What `takeColors` read stood in front of the rest, and is as long as it was asked. -/
theorem takeColors_some {n : Nat} {ws rest : List Word} {c : List Color} (h : takeColors n ws = some (c, rest)) :
    c.length = n ∧ ws = c.map wordOfColor ++ rest := by
  induction n generalizing ws c with
  | zero =>
    simp only [takeColors, Option.some.injEq, Prod.mk.injEq] at h
    obtain ⟨rfl, rfl⟩ := h
    simp
  | succ n ih =>
    cases ws with
    | nil => simp [takeColors] at h
    | cons w ws =>
      simp only [takeColors] at h
      split at h
      · rename_i cs r hr
        simp only [Option.some.injEq, Prod.mk.injEq] at h
        obtain ⟨rfl, rfl⟩ := h
        obtain ⟨h1, h2⟩ := ih hr
        exact ⟨by simp [h1], by simp [← h2]⟩
      · simp at h

theorem lenOf_lt (w : Word) : lenOf w < 65536 := by
  have := (w.extractLsb' 0 16).isLt
  simpa [lenOf] using this

end Sys2Proof
end

