-- ==== Sys2Proof/Laws/State.lean ====
section
/-! SUPPORT. One lemma per component per named update of the state, each true by rfl, so that no proof unfolds a record update. -/

namespace Sys2Proof.Machine

open Sys2Proof

/-! ## State.give: a value given to the issuer writes `reply` only -/

@[simp] theorem State.give_cfg (s : State) (r : Reply) : (s.give r).cfg = s.cfg := rfl
@[simp] theorem State.give_attached (s : State) (r : Reply) : (s.give r).attached = s.attached := rfl
@[simp] theorem State.give_taskState (s : State) (r : Reply) : (s.give r).taskState = s.taskState := rfl
@[simp] theorem State.give_pendValid (s : State) (r : Reply) : (s.give r).pendValid = s.pendValid := rfl
@[simp] theorem State.give_pend (s : State) (r : Reply) : (s.give r).pend = s.pend := rfl
@[simp] theorem State.give_seqValid (s : State) (r : Reply) : (s.give r).seqValid = s.seqValid := rfl
@[simp] theorem State.give_seq (s : State) (r : Reply) : (s.give r).seq = s.seq := rfl
@[simp] theorem State.give_drvState (s : State) (r : Reply) : (s.give r).drvState = s.drvState := rfl
@[simp] theorem State.give_drvResult (s : State) (r : Reply) : (s.give r).drvResult = s.drvResult := rfl
@[simp] theorem State.give_timer (s : State) (r : Reply) : (s.give r).timer = s.timer := rfl
@[simp] theorem State.give_timeout (s : State) (r : Reply) : (s.give r).timeout = s.timeout := rfl
@[simp] theorem State.give_txDur (s : State) (r : Reply) : (s.give r).txDur = s.txDur := rfl
@[simp] theorem State.give_done (s : State) (r : Reply) : (s.give r).done = s.done := rfl
@[simp] theorem State.give_sb (s : State) (r : Reply) : (s.give r).sb = s.sb := rfl
@[simp] theorem State.give_sbLen (s : State) (r : Reply) : (s.give r).sbLen = s.sbLen := rfl
@[simp] theorem State.give_pRun (s : State) (r : Reply) : (s.give r).pRun = s.pRun := rfl
@[simp] theorem State.give_pIdx (s : State) (r : Reply) : (s.give r).pIdx = s.pIdx := rfl
@[simp] theorem State.give_line (s : State) (r : Reply) : (s.give r).line = s.line := rfl
@[simp] theorem State.give_wave (s : State) (r : Reply) : (s.give r).wave = s.wave := rfl
@[simp] theorem State.give_now (s : State) (r : Reply) : (s.give r).now = s.now := rfl
@[simp] theorem State.give_resp (s : State) (r : Reply) : (s.give r).resp = s.resp := rfl
@[simp] theorem State.give_reply (s : State) (r : Reply) : (s.give r).reply = some r := rfl
@[simp] theorem State.give_port (s : State) (r : Reply) : (s.give r).port = s.port := rfl
@[simp] theorem State.give_sched (s : State) (r : Reply) : (s.give r).sched = s.sched := rfl

/-! ## State.giveNothing: no value given: `reply` only -/

@[simp] theorem State.giveNothing_cfg (s : State) : (s.giveNothing).cfg = s.cfg := rfl
@[simp] theorem State.giveNothing_attached (s : State) : (s.giveNothing).attached = s.attached := rfl
@[simp] theorem State.giveNothing_taskState (s : State) : (s.giveNothing).taskState = s.taskState := rfl
@[simp] theorem State.giveNothing_pendValid (s : State) : (s.giveNothing).pendValid = s.pendValid := rfl
@[simp] theorem State.giveNothing_pend (s : State) : (s.giveNothing).pend = s.pend := rfl
@[simp] theorem State.giveNothing_seqValid (s : State) : (s.giveNothing).seqValid = s.seqValid := rfl
@[simp] theorem State.giveNothing_seq (s : State) : (s.giveNothing).seq = s.seq := rfl
@[simp] theorem State.giveNothing_drvState (s : State) : (s.giveNothing).drvState = s.drvState := rfl
@[simp] theorem State.giveNothing_drvResult (s : State) : (s.giveNothing).drvResult = s.drvResult := rfl
@[simp] theorem State.giveNothing_timer (s : State) : (s.giveNothing).timer = s.timer := rfl
@[simp] theorem State.giveNothing_timeout (s : State) : (s.giveNothing).timeout = s.timeout := rfl
@[simp] theorem State.giveNothing_txDur (s : State) : (s.giveNothing).txDur = s.txDur := rfl
@[simp] theorem State.giveNothing_done (s : State) : (s.giveNothing).done = s.done := rfl
@[simp] theorem State.giveNothing_sb (s : State) : (s.giveNothing).sb = s.sb := rfl
@[simp] theorem State.giveNothing_sbLen (s : State) : (s.giveNothing).sbLen = s.sbLen := rfl
@[simp] theorem State.giveNothing_pRun (s : State) : (s.giveNothing).pRun = s.pRun := rfl
@[simp] theorem State.giveNothing_pIdx (s : State) : (s.giveNothing).pIdx = s.pIdx := rfl
@[simp] theorem State.giveNothing_line (s : State) : (s.giveNothing).line = s.line := rfl
@[simp] theorem State.giveNothing_wave (s : State) : (s.giveNothing).wave = s.wave := rfl
@[simp] theorem State.giveNothing_now (s : State) : (s.giveNothing).now = s.now := rfl
@[simp] theorem State.giveNothing_resp (s : State) : (s.giveNothing).resp = s.resp := rfl
@[simp] theorem State.giveNothing_reply (s : State) : (s.giveNothing).reply = none := rfl
@[simp] theorem State.giveNothing_port (s : State) : (s.giveNothing).port = s.port := rfl
@[simp] theorem State.giveNothing_sched (s : State) : (s.giveNothing).sched = s.sched := rfl

/-! ## State.raise: raising a failure writes no component (R260) -/

@[simp] theorem State.raise_cfg (s : State) (f : Failure) : (s.raise f).cfg = s.cfg := rfl
@[simp] theorem State.raise_attached (s : State) (f : Failure) : (s.raise f).attached = s.attached := rfl
@[simp] theorem State.raise_taskState (s : State) (f : Failure) : (s.raise f).taskState = s.taskState := rfl
@[simp] theorem State.raise_pendValid (s : State) (f : Failure) : (s.raise f).pendValid = s.pendValid := rfl
@[simp] theorem State.raise_pend (s : State) (f : Failure) : (s.raise f).pend = s.pend := rfl
@[simp] theorem State.raise_seqValid (s : State) (f : Failure) : (s.raise f).seqValid = s.seqValid := rfl
@[simp] theorem State.raise_seq (s : State) (f : Failure) : (s.raise f).seq = s.seq := rfl
@[simp] theorem State.raise_drvState (s : State) (f : Failure) : (s.raise f).drvState = s.drvState := rfl
@[simp] theorem State.raise_drvResult (s : State) (f : Failure) : (s.raise f).drvResult = s.drvResult := rfl
@[simp] theorem State.raise_timer (s : State) (f : Failure) : (s.raise f).timer = s.timer := rfl
@[simp] theorem State.raise_timeout (s : State) (f : Failure) : (s.raise f).timeout = s.timeout := rfl
@[simp] theorem State.raise_txDur (s : State) (f : Failure) : (s.raise f).txDur = s.txDur := rfl
@[simp] theorem State.raise_done (s : State) (f : Failure) : (s.raise f).done = s.done := rfl
@[simp] theorem State.raise_sb (s : State) (f : Failure) : (s.raise f).sb = s.sb := rfl
@[simp] theorem State.raise_sbLen (s : State) (f : Failure) : (s.raise f).sbLen = s.sbLen := rfl
@[simp] theorem State.raise_pRun (s : State) (f : Failure) : (s.raise f).pRun = s.pRun := rfl
@[simp] theorem State.raise_pIdx (s : State) (f : Failure) : (s.raise f).pIdx = s.pIdx := rfl
@[simp] theorem State.raise_line (s : State) (f : Failure) : (s.raise f).line = s.line := rfl
@[simp] theorem State.raise_wave (s : State) (f : Failure) : (s.raise f).wave = s.wave := rfl
@[simp] theorem State.raise_now (s : State) (f : Failure) : (s.raise f).now = s.now := rfl
@[simp] theorem State.raise_resp (s : State) (f : Failure) : (s.raise f).resp = s.resp := rfl
@[simp] theorem State.raise_reply (s : State) (f : Failure) : (s.raise f).reply = some (.result (.failed f)) := rfl
@[simp] theorem State.raise_port (s : State) (f : Failure) : (s.raise f).port = s.port := rfl
@[simp] theorem State.raise_sched (s : State) (f : Failure) : (s.raise f).sched = s.sched := rfl

/-! ## State.respond: a report appends to RESP only -/

@[simp] theorem State.respond_cfg (s : State) (r : Result) : (s.respond r).cfg = s.cfg := rfl
@[simp] theorem State.respond_attached (s : State) (r : Result) : (s.respond r).attached = s.attached := rfl
@[simp] theorem State.respond_taskState (s : State) (r : Result) : (s.respond r).taskState = s.taskState := rfl
@[simp] theorem State.respond_pendValid (s : State) (r : Result) : (s.respond r).pendValid = s.pendValid := rfl
@[simp] theorem State.respond_pend (s : State) (r : Result) : (s.respond r).pend = s.pend := rfl
@[simp] theorem State.respond_seqValid (s : State) (r : Result) : (s.respond r).seqValid = s.seqValid := rfl
@[simp] theorem State.respond_seq (s : State) (r : Result) : (s.respond r).seq = s.seq := rfl
@[simp] theorem State.respond_drvState (s : State) (r : Result) : (s.respond r).drvState = s.drvState := rfl
@[simp] theorem State.respond_drvResult (s : State) (r : Result) : (s.respond r).drvResult = s.drvResult := rfl
@[simp] theorem State.respond_timer (s : State) (r : Result) : (s.respond r).timer = s.timer := rfl
@[simp] theorem State.respond_timeout (s : State) (r : Result) : (s.respond r).timeout = s.timeout := rfl
@[simp] theorem State.respond_txDur (s : State) (r : Result) : (s.respond r).txDur = s.txDur := rfl
@[simp] theorem State.respond_done (s : State) (r : Result) : (s.respond r).done = s.done := rfl
@[simp] theorem State.respond_sb (s : State) (r : Result) : (s.respond r).sb = s.sb := rfl
@[simp] theorem State.respond_sbLen (s : State) (r : Result) : (s.respond r).sbLen = s.sbLen := rfl
@[simp] theorem State.respond_pRun (s : State) (r : Result) : (s.respond r).pRun = s.pRun := rfl
@[simp] theorem State.respond_pIdx (s : State) (r : Result) : (s.respond r).pIdx = s.pIdx := rfl
@[simp] theorem State.respond_line (s : State) (r : Result) : (s.respond r).line = s.line := rfl
@[simp] theorem State.respond_wave (s : State) (r : Result) : (s.respond r).wave = s.wave := rfl
@[simp] theorem State.respond_now (s : State) (r : Result) : (s.respond r).now = s.now := rfl
@[simp] theorem State.respond_resp (s : State) (r : Result) : (s.respond r).resp = s.resp ++ [r] := rfl
@[simp] theorem State.respond_reply (s : State) (r : Result) : (s.respond r).reply = s.reply := rfl
@[simp] theorem State.respond_port (s : State) (r : Result) : (s.respond r).port = s.port := rfl
@[simp] theorem State.respond_sched (s : State) (r : Result) : (s.respond r).sched = s.sched := rfl

/-! ## State.clearSeq: SEQ emptied, nothing else -/

@[simp] theorem State.clearSeq_cfg (s : State) : (s.clearSeq).cfg = s.cfg := rfl
@[simp] theorem State.clearSeq_attached (s : State) : (s.clearSeq).attached = s.attached := rfl
@[simp] theorem State.clearSeq_taskState (s : State) : (s.clearSeq).taskState = s.taskState := rfl
@[simp] theorem State.clearSeq_pendValid (s : State) : (s.clearSeq).pendValid = s.pendValid := rfl
@[simp] theorem State.clearSeq_pend (s : State) : (s.clearSeq).pend = s.pend := rfl
@[simp] theorem State.clearSeq_seqValid (s : State) : (s.clearSeq).seqValid = false := rfl
@[simp] theorem State.clearSeq_seq (s : State) : (s.clearSeq).seq = [] := rfl
@[simp] theorem State.clearSeq_drvState (s : State) : (s.clearSeq).drvState = s.drvState := rfl
@[simp] theorem State.clearSeq_drvResult (s : State) : (s.clearSeq).drvResult = s.drvResult := rfl
@[simp] theorem State.clearSeq_timer (s : State) : (s.clearSeq).timer = s.timer := rfl
@[simp] theorem State.clearSeq_timeout (s : State) : (s.clearSeq).timeout = s.timeout := rfl
@[simp] theorem State.clearSeq_txDur (s : State) : (s.clearSeq).txDur = s.txDur := rfl
@[simp] theorem State.clearSeq_done (s : State) : (s.clearSeq).done = s.done := rfl
@[simp] theorem State.clearSeq_sb (s : State) : (s.clearSeq).sb = s.sb := rfl
@[simp] theorem State.clearSeq_sbLen (s : State) : (s.clearSeq).sbLen = s.sbLen := rfl
@[simp] theorem State.clearSeq_pRun (s : State) : (s.clearSeq).pRun = s.pRun := rfl
@[simp] theorem State.clearSeq_pIdx (s : State) : (s.clearSeq).pIdx = s.pIdx := rfl
@[simp] theorem State.clearSeq_line (s : State) : (s.clearSeq).line = s.line := rfl
@[simp] theorem State.clearSeq_wave (s : State) : (s.clearSeq).wave = s.wave := rfl
@[simp] theorem State.clearSeq_now (s : State) : (s.clearSeq).now = s.now := rfl
@[simp] theorem State.clearSeq_resp (s : State) : (s.clearSeq).resp = s.resp := rfl
@[simp] theorem State.clearSeq_reply (s : State) : (s.clearSeq).reply = s.reply := rfl
@[simp] theorem State.clearSeq_port (s : State) : (s.clearSeq).port = s.port := rfl
@[simp] theorem State.clearSeq_sched (s : State) : (s.clearSeq).sched = s.sched := rfl

/-! ## State.startChannel: the writes of a start (R171) -/

@[simp] theorem State.startChannel_cfg (s : State) (ws : List Word) : (s.startChannel ws).cfg = s.cfg := rfl
@[simp] theorem State.startChannel_attached (s : State) (ws : List Word) : (s.startChannel ws).attached = s.attached := rfl
@[simp] theorem State.startChannel_taskState (s : State) (ws : List Word) : (s.startChannel ws).taskState = s.taskState := rfl
@[simp] theorem State.startChannel_pendValid (s : State) (ws : List Word) : (s.startChannel ws).pendValid = s.pendValid := rfl
@[simp] theorem State.startChannel_pend (s : State) (ws : List Word) : (s.startChannel ws).pend = s.pend := rfl
@[simp] theorem State.startChannel_seqValid (s : State) (ws : List Word) : (s.startChannel ws).seqValid = false := rfl
@[simp] theorem State.startChannel_seq (s : State) (ws : List Word) : (s.startChannel ws).seq = [] := rfl
@[simp] theorem State.startChannel_drvState (s : State) (ws : List Word) : (s.startChannel ws).drvState = .transmitting := rfl
@[simp] theorem State.startChannel_drvResult (s : State) (ws : List Word) : (s.startChannel ws).drvResult = .noResult := rfl
@[simp] theorem State.startChannel_timer (s : State) (ws : List Word) : (s.startChannel ws).timer = 0 := rfl
@[simp] theorem State.startChannel_timeout (s : State) (ws : List Word) : (s.startChannel ws).timeout = seqDur s.seq + s.cfg.marginTicks := rfl
@[simp] theorem State.startChannel_txDur (s : State) (ws : List Word) : (s.startChannel ws).txDur = seqDur s.seq := rfl
@[simp] theorem State.startChannel_done (s : State) (ws : List Word) : (s.startChannel ws).done = false := rfl
@[simp] theorem State.startChannel_sb (s : State) (ws : List Word) : (s.startChannel ws).sb = ws := rfl
@[simp] theorem State.startChannel_sbLen (s : State) (ws : List Word) : (s.startChannel ws).sbLen = s.seq.length := rfl
@[simp] theorem State.startChannel_pRun (s : State) (ws : List Word) : (s.startChannel ws).pRun = true := rfl
@[simp] theorem State.startChannel_pIdx (s : State) (ws : List Word) : (s.startChannel ws).pIdx = 0 := rfl
@[simp] theorem State.startChannel_line (s : State) (ws : List Word) : (s.startChannel ws).line = s.line := rfl
@[simp] theorem State.startChannel_wave (s : State) (ws : List Word) : (s.startChannel ws).wave = s.wave := rfl
@[simp] theorem State.startChannel_now (s : State) (ws : List Word) : (s.startChannel ws).now = s.now := rfl
@[simp] theorem State.startChannel_resp (s : State) (ws : List Word) : (s.startChannel ws).resp = s.resp := rfl
@[simp] theorem State.startChannel_reply (s : State) (ws : List Word) : (s.startChannel ws).reply = s.reply := rfl
@[simp] theorem State.startChannel_port (s : State) (ws : List Word) : (s.startChannel ws).port = s.port := rfl
@[simp] theorem State.startChannel_sched (s : State) (ws : List Word) : (s.startChannel ws).sched = s.sched := rfl

/-! ## State.channelReset: the writes of chreset() (R181) -/

@[simp] theorem State.channelReset_cfg (s : State) : (s.channelReset).cfg = s.cfg := rfl
@[simp] theorem State.channelReset_attached (s : State) : (s.channelReset).attached = s.attached := rfl
@[simp] theorem State.channelReset_taskState (s : State) : (s.channelReset).taskState = s.taskState := rfl
@[simp] theorem State.channelReset_pendValid (s : State) : (s.channelReset).pendValid = s.pendValid := rfl
@[simp] theorem State.channelReset_pend (s : State) : (s.channelReset).pend = s.pend := rfl
@[simp] theorem State.channelReset_seqValid (s : State) : (s.channelReset).seqValid = s.seqValid := rfl
@[simp] theorem State.channelReset_seq (s : State) : (s.channelReset).seq = s.seq := rfl
@[simp] theorem State.channelReset_drvState (s : State) : (s.channelReset).drvState = s.drvState := rfl
@[simp] theorem State.channelReset_drvResult (s : State) : (s.channelReset).drvResult = s.drvResult := rfl
@[simp] theorem State.channelReset_timer (s : State) : (s.channelReset).timer = s.timer := rfl
@[simp] theorem State.channelReset_timeout (s : State) : (s.channelReset).timeout = s.timeout := rfl
@[simp] theorem State.channelReset_txDur (s : State) : (s.channelReset).txDur = s.txDur := rfl
@[simp] theorem State.channelReset_done (s : State) : (s.channelReset).done = false := rfl
@[simp] theorem State.channelReset_sb (s : State) : (s.channelReset).sb = [] := rfl
@[simp] theorem State.channelReset_sbLen (s : State) : (s.channelReset).sbLen = 0 := rfl
@[simp] theorem State.channelReset_pRun (s : State) : (s.channelReset).pRun = false := rfl
@[simp] theorem State.channelReset_pIdx (s : State) : (s.channelReset).pIdx = 0 := rfl
@[simp] theorem State.channelReset_line (s : State) : (s.channelReset).line = false := rfl
@[simp] theorem State.channelReset_wave (s : State) : (s.channelReset).wave = if s.pRun then s.wave ++ [.abort] else s.wave := rfl
@[simp] theorem State.channelReset_now (s : State) : (s.channelReset).now = s.now := rfl
@[simp] theorem State.channelReset_resp (s : State) : (s.channelReset).resp = s.resp := rfl
@[simp] theorem State.channelReset_reply (s : State) : (s.channelReset).reply = s.reply := rfl
@[simp] theorem State.channelReset_port (s : State) : (s.channelReset).port = s.port := rfl
@[simp] theorem State.channelReset_sched (s : State) : (s.channelReset).sched = s.sched := rfl

/-! ## State.finishFrame: the writes of TASK_FINISH before the pending slot (R233) -/

@[simp] theorem State.finishFrame_cfg (s : State) (r : Result) : (s.finishFrame r).cfg = s.cfg := rfl
@[simp] theorem State.finishFrame_attached (s : State) (r : Result) : (s.finishFrame r).attached = s.attached := rfl
@[simp] theorem State.finishFrame_taskState (s : State) (r : Result) : (s.finishFrame r).taskState = .idle := rfl
@[simp] theorem State.finishFrame_pendValid (s : State) (r : Result) : (s.finishFrame r).pendValid = s.pendValid := rfl
@[simp] theorem State.finishFrame_pend (s : State) (r : Result) : (s.finishFrame r).pend = s.pend := rfl
@[simp] theorem State.finishFrame_seqValid (s : State) (r : Result) : (s.finishFrame r).seqValid = s.seqValid := rfl
@[simp] theorem State.finishFrame_seq (s : State) (r : Result) : (s.finishFrame r).seq = s.seq := rfl
@[simp] theorem State.finishFrame_drvState (s : State) (r : Result) : (s.finishFrame r).drvState = s.drvState := rfl
@[simp] theorem State.finishFrame_drvResult (s : State) (r : Result) : (s.finishFrame r).drvResult = .noResult := rfl
@[simp] theorem State.finishFrame_timer (s : State) (r : Result) : (s.finishFrame r).timer = s.timer := rfl
@[simp] theorem State.finishFrame_timeout (s : State) (r : Result) : (s.finishFrame r).timeout = s.timeout := rfl
@[simp] theorem State.finishFrame_txDur (s : State) (r : Result) : (s.finishFrame r).txDur = s.txDur := rfl
@[simp] theorem State.finishFrame_done (s : State) (r : Result) : (s.finishFrame r).done = s.done := rfl
@[simp] theorem State.finishFrame_sb (s : State) (r : Result) : (s.finishFrame r).sb = s.sb := rfl
@[simp] theorem State.finishFrame_sbLen (s : State) (r : Result) : (s.finishFrame r).sbLen = s.sbLen := rfl
@[simp] theorem State.finishFrame_pRun (s : State) (r : Result) : (s.finishFrame r).pRun = s.pRun := rfl
@[simp] theorem State.finishFrame_pIdx (s : State) (r : Result) : (s.finishFrame r).pIdx = s.pIdx := rfl
@[simp] theorem State.finishFrame_line (s : State) (r : Result) : (s.finishFrame r).line = s.line := rfl
@[simp] theorem State.finishFrame_wave (s : State) (r : Result) : (s.finishFrame r).wave = s.wave := rfl
@[simp] theorem State.finishFrame_now (s : State) (r : Result) : (s.finishFrame r).now = s.now := rfl
@[simp] theorem State.finishFrame_resp (s : State) (r : Result) : (s.finishFrame r).resp = s.resp ++ [r] := rfl
@[simp] theorem State.finishFrame_reply (s : State) (r : Result) : (s.finishFrame r).reply = none := rfl
@[simp] theorem State.finishFrame_port (s : State) (r : Result) : (s.finishFrame r).port = s.port := rfl
@[simp] theorem State.finishFrame_sched (s : State) (r : Result) : (s.finishFrame r).sched = s.sched := rfl

end Sys2Proof.Machine
end

