-- ==== Sys2Proof/Laws/Symbols.lean ====
section
/-! SUPPORT. The lengths, durations and words of symbol sequences, and what an admitted configuration gives them. -/

namespace Sys2Proof.Machine

open Sys2Proof
open Sys2Proof.Safety

/-! ## Lengths (R107, R131, R152) -/

@[simp] theorem encByte_length (cfg : Config) (v : Byte) : (encByte cfg v).length = 8 := rfl

@[simp] theorem pixelBytes_length (cfg : Config) (col : Color) : (pixelBytes cfg col).length = cfg.ch := by
  simp [pixelBytes]

theorem flatMap_length_const {α β : Type} (f : α → List β) (k : Nat) (h : ∀ a, (f a).length = k) (l : List α) :
    (l.flatMap f).length = l.length * k := by
  induction l with
  | nil => simp
  | cons a l ih => simp [h, ih, Nat.succ_mul, Nat.add_comm]

@[simp] theorem wireBytes_length (cfg : Config) (c : List Color) : (wireBytes cfg c).length = c.length * cfg.ch :=
  flatMap_length_const _ _ (pixelBytes_length cfg) c

@[simp] theorem frameSymbols_length (cfg : Config) (c : List Color) :
    (frameSymbols cfg c).length = c.length * cfg.ch * 8 + 1 := by
  simp [frameSymbols, flatMap_length_const _ 8 (encByte_length cfg)]

theorem frameSymbols_length_frameLen (cfg : Config) (c : List Color) (h : c.length = cfg.n) :
    (frameSymbols cfg c).length = frameLen cfg := by
  simp [frameLen, h]

/-! ## Which symbols stand in a frame (R92) -/

theorem encBit_cases (cfg : Config) (b : Bool) : encBit cfg b = symZero cfg ∨ encBit cfg b = symOne cfg := by
  cases b <;> simp [encBit]

theorem mem_encByte {cfg : Config} {v : Byte} {ts : TimingSymbol} (h : ts ∈ encByte cfg v) :
    ts = symZero cfg ∨ ts = symOne cfg := by
  have bit : ∀ b, ts = encBit cfg b → ts = symZero cfg ∨ ts = symOne cfg := by
    rintro b rfl
    exact encBit_cases cfg b
  simp only [encByte, List.mem_cons, List.not_mem_nil, or_false] at h
  rcases h with h | h | h | h | h | h | h | h <;> exact bit _ h

/-- "Only three values of the type ever occur in a sequence" (R92). -/
theorem mem_frameSymbols {cfg : Config} {c : List Color} {ts : TimingSymbol} (h : ts ∈ frameSymbols cfg c) :
    ts = symZero cfg ∨ ts = symOne cfg ∨ ts = symReset cfg := by
  simp only [frameSymbols, List.mem_append, List.mem_flatMap, List.mem_singleton] at h
  rcases h with ⟨v, -, hv⟩ | h
  · rcases mem_encByte hv with h | h
    · exact .inl h
    · exact .inr (.inl h)
  · exact .inr (.inr h)

/-! ## What admission gives (R215) -/

/-- The checks of an admitted configuration as facts. -/
structure AdmittedFacts (cfg : Config) : Prop where
  ch : cfg.ch = 3 ∨ cfg.ch = 4
  orderLen : cfg.order.length = cfg.ch
  orderLt : ∀ i ∈ cfg.order, i < cfg.ch
  orderNodup : cfg.order.Nodup
  rate : 1 ≤ cfg.fTickHz
  zeroHi : 1 ≤ t0h cfg ∧ t0h cfg ≤ 32767
  zeroLo : 1 ≤ t0l cfg ∧ t0l cfg ≤ 32767
  oneHi : 1 ≤ t1h cfg ∧ t1h cfg ≤ 32767
  oneLo : 1 ≤ t1l cfg ∧ t1l cfg ≤ 32767
  tol : withinTol cfg (t0h cfg) cfg.t0hNs = true ∧ withinTol cfg (t0l cfg) cfg.t0lNs = true ∧
    withinTol cfg (t1h cfg) cfg.t1hNs = true ∧ withinTol cfg (t1l cfg) cfg.t1lNs = true
  distinct : t0h cfg < t1h cfg
  resetLo : 2 ≤ treset cfg ∧ treset cfg ≤ 65534
  depth : 1 ≤ cfg.hwDepth
  nMax : cfg.nMax ≤ 65535
  sum : longestTimeout cfg < 2 ^ 32 - 1

theorem admittedFacts {cfg : Config} (h : admitted cfg = true) : AdmittedFacts cfg := by
  simp only [admitted, checkV1, checkV2, checkV3, checkV4, checkV5, checkV6, checkV7, checkV8, checkV9, fitsHalf, Config.durMax,
    Bool.and_eq_true, Bool.or_eq_true, beq_iff_eq, decide_eq_true_eq, List.all_eq_true] at h
  obtain ⟨⟨⟨⟨⟨⟨⟨⟨h1, ⟨h2, h2'⟩, h2''⟩, h3⟩, ⟨⟨h4, h4'⟩, h4''⟩, h4'''⟩, ⟨⟨h5, h5'⟩, h5''⟩, h5'''⟩, h6⟩, h7⟩, h8⟩, h9⟩ := h
  exact ⟨h1, h2, h2', h2'', h3, h4, h4', h4'', h4''', ⟨h5, h5', h5'', h5'''⟩, h6, h7, h8.1, h8.2, h9⟩

/-! ## XLATE (R216) -/

theorem xlate_eq_wordOf {ts : TimingSymbol} {w : Word} (h : xlate ts = some w) : w = wordOf ts := by
  unfold xlate at h
  split at h
  · rename_i hd
    simp only [dataSymbol, fitsHalf, Config.durMax, Bool.and_eq_true, decide_eq_true_eq] at hd
    obtain rfl := Option.some.inj h
    rw [wordOf, if_neg (by omega)]
    apply BitVec.eq_of_toNat_eq
    simp only [packWord, BitVec.toNat_append, BitVec.toNat_ofNat, BitVec.toNat_ofBool, Bool.toNat_false, Bool.toNat_true]
    rw [← Nat.shiftLeft_add_eq_or_of_lt (by omega), ← Nat.shiftLeft_add_eq_or_of_lt (by omega),
      ← Nat.shiftLeft_add_eq_or_of_lt (by omega)]
    simp only [Nat.shiftLeft_eq]
    omega
  · split at h
    · rename_i hr
      simp only [resetSymbol, Config.durMax, Bool.and_eq_true, beq_iff_eq, decide_eq_true_eq] at hr
      obtain rfl := Option.some.inj h
      rw [wordOf, if_pos (by omega)]
      have ha : ts.lo - ts.lo / 2 ≤ 32767 := by omega
      have hb : ts.lo / 2 ≤ 32767 := by omega
      generalize ts.lo - ts.lo / 2 = a at ha ⊢
      generalize ts.lo / 2 = b at hb ⊢
      apply BitVec.eq_of_toNat_eq
      simp only [packWord, BitVec.toNat_append, BitVec.toNat_ofNat, BitVec.toNat_ofBool, Bool.toNat_false]
      rw [← Nat.shiftLeft_add_eq_or_of_lt (by omega), ← Nat.shiftLeft_add_eq_or_of_lt (by omega),
        ← Nat.shiftLeft_add_eq_or_of_lt (by omega)]
      simp only [Nat.shiftLeft_eq]
      omega
    · simp at h

theorem xlate_isSome_iff {ts : TimingSymbol} : (xlate ts).isSome = true ↔ InDomain ts := by
  unfold xlate InDomain
  split
  · rename_i hd
    simp only [dataSymbol, fitsHalf, Config.durMax, Bool.and_eq_true, decide_eq_true_eq] at hd
    simp only [Option.isSome_some, true_iff]
    omega
  · rename_i hd
    simp only [dataSymbol, fitsHalf, Config.durMax, Bool.and_eq_true, decide_eq_true_eq] at hd
    split
    · rename_i hr
      simp only [resetSymbol, Config.durMax, Bool.and_eq_true, beq_iff_eq, decide_eq_true_eq] at hr
      simp only [Option.isSome_some, true_iff]
      omega
    · rename_i hr
      simp only [resetSymbol, Config.durMax, Bool.and_eq_true, beq_iff_eq, decide_eq_true_eq] at hr
      simp only [Option.isSome_none, Bool.false_eq_true, false_iff]
      omega

/-- Inside the domain XLATE gives the word of the field table. -/
theorem xlate_inDomain {ts : TimingSymbol} (h : InDomain ts) : xlate ts = some (wordOf ts) := by
  obtain ⟨w, hw⟩ := Option.isSome_iff_exists.mp (xlate_isSome_iff.mpr h)
  rw [hw, xlate_eq_wordOf hw]

/-- A sequence inside the domain is translated word by word. -/
theorem xlateAll_inDomain {l : List TimingSymbol} (h : ∀ ts ∈ l, InDomain ts) : xlateAll l = some (l.map wordOf) := by
  induction l with
  | nil => rfl
  | cons ts l ih =>
    simp [xlateAll, xlate_inDomain (h ts (by simp)), ih fun t ht => h t (by simp [ht])]

/-- The translation, whenever there is one, is the word of each symbol, and every symbol was inside the domain. -/
theorem xlateAll_some {l : List TimingSymbol} {ws : List Word} (h : xlateAll l = some ws) :
    ws = l.map wordOf ∧ ∀ ts ∈ l, InDomain ts := by
  induction l generalizing ws with
  | nil => simpa [xlateAll, eq_comm] using h
  | cons ts l ih =>
    simp only [xlateAll] at h
    split at h
    · rename_i w ws' hw hws
      obtain rfl := Option.some.inj h
      obtain ⟨rfl, hl⟩ := ih hws
      refine ⟨by simp [xlate_eq_wordOf hw], ?_⟩
      intro t ht
      rcases List.mem_cons.mp ht with rfl | ht
      · exact xlate_isSome_iff.mp (by simp [hw])
      · exact hl t ht
    · simp at h

/-- The fields of a word as arithmetic on its value. -/
theorem wordDur0_eq (w : Word) : wordDur0 w = w.toNat % 32768 := by
  simp [wordDur0, BitVec.extractLsb'_toNat]

theorem wordDur1_eq (w : Word) : wordDur1 w = w.toNat / 65536 % 32768 := by
  simp [wordDur1, BitVec.extractLsb'_toNat, Nat.shiftRight_eq_div_pow]

theorem wordLvl0_eq (w : Word) : wordLvl0 w = decide (w.toNat / 32768 % 2 = 1) := by
  simp [wordLvl0, BitVec.getLsbD, Nat.testBit_eq_decide_div_mod_eq]

theorem wordLvl1_eq (w : Word) : wordLvl1 w = decide (w.toNat / 2147483648 % 2 = 1) := by
  simp [wordLvl1, BitVec.getLsbD, Nat.testBit_eq_decide_div_mod_eq]

/-- The fields of the word of a data symbol. -/
theorem wordOf_data {ts : TimingSymbol} (h1 : 1 ≤ ts.hi) (h2 : ts.hi ≤ 32767) (h3 : 1 ≤ ts.lo) (h4 : ts.lo ≤ 32767) :
    wordDur0 (wordOf ts) = ts.hi ∧ wordLvl0 (wordOf ts) = true ∧ wordDur1 (wordOf ts) = ts.lo ∧ wordLvl1 (wordOf ts) = false := by
  have hw : (wordOf ts).toNat = ts.hi + 32768 + 65536 * ts.lo := by
    rw [wordOf, if_neg (by omega), BitVec.toNat_ofNat, Nat.mod_eq_of_lt (by omega)]
  simp only [wordDur0_eq, wordDur1_eq, wordLvl0_eq, wordLvl1_eq, hw, decide_eq_true_eq, decide_eq_false_iff_not]
  omega

/-- The fields of the word of the RESET-symbol. -/
theorem wordOf_reset {ts : TimingSymbol} (h1 : ts.hi = 0) (h3 : ts.lo ≤ 65534) :
    wordDur0 (wordOf ts) = ts.lo - ts.lo / 2 ∧ wordLvl0 (wordOf ts) = false ∧ wordDur1 (wordOf ts) = ts.lo / 2 ∧
      wordLvl1 (wordOf ts) = false := by
  have hw : (wordOf ts).toNat = (ts.lo - ts.lo / 2) + 65536 * (ts.lo / 2) := by
    rw [wordOf, if_pos h1, BitVec.toNat_ofNat, Nat.mod_eq_of_lt (by omega)]
  have ha : ts.lo - ts.lo / 2 ≤ 32767 := by omega
  have hb : ts.lo / 2 ≤ 32767 := by omega
  simp only [wordDur0_eq, wordDur1_eq, wordLvl0_eq, wordLvl1_eq, hw, decide_eq_false_iff_not]
  generalize ts.lo - ts.lo / 2 = a at ha ⊢
  generalize ts.lo / 2 = b at hb ⊢
  omega

/-- Every word of a translated symbol is well-formed. -/
theorem wordOf_wf {ts : TimingSymbol} (h : InDomain ts) : wordWf (wordOf ts) = true := by
  rcases h with ⟨h1, h2, h3, h4⟩ | ⟨h1, h2, h3⟩
  · obtain ⟨e0, -, e1, e2⟩ := wordOf_data h1 h2 h3 h4
    simp [wordWf, e0, e1, e2, h1, h3]
  · obtain ⟨e0, -, e1, e2⟩ := wordOf_reset h1 h3
    simp only [wordWf, e0, e1, e2, Bool.and_eq_true, decide_eq_true_eq, Bool.not_false, and_true]
    omega

/-- The three symbols of an admitted configuration are inside the domain of XLATE (R216: "never refused inside TRANSMIT"). -/
theorem frameSymbols_inDomain {cfg : Config} (h : admitted cfg = true) (c : List Color) :
    ∀ ts ∈ frameSymbols cfg c, InDomain ts := by
  intro ts hts
  have f := admittedFacts h
  rcases mem_frameSymbols hts with rfl | rfl | rfl
  · exact .inl ⟨f.zeroHi.1, f.zeroHi.2, f.zeroLo.1, f.zeroLo.2⟩
  · exact .inl ⟨f.oneHi.1, f.oneHi.2, f.oneLo.1, f.oneLo.2⟩
  · exact .inr ⟨rfl, f.resetLo.1, f.resetLo.2⟩

end Sys2Proof.Machine
end

