-- ==== Sys2Proof/Laws/Ops.lean ====
section
/-! SUPPORT. What each shared operation can do, said once: BUILD, TRANSMIT, start_frame; and for each operation of the table, the case in which
it is a step (an inversion lemma: if it answers next t, then ...). -/

namespace Sys2Proof.Machine

open Sys2Proof
open Sys2Proof.Safety

/-! ## BUILD (R151) -/

theorem unsupportedSize_eq (cfg : Config) : unsupportedSize cfg = true ↔ cfg.n = 0 ∨ cfg.nMax < cfg.n := by
  simp [unsupportedSize]

theorem buildSeq_ok {s : State} {c : List Color} (h : BuildsFrame s.cfg c) :
    buildSeq s c = (.ok, { s with seq := frameSymbols s.cfg c, seqValid := true }) := by
  obtain ⟨h1, h2, h3⟩ := h
  have hu : ¬ unsupportedSize s.cfg = true := by
    rw [unsupportedSize_eq]
    omega
  simp [buildSeq, hu, h3]

theorem buildSeq_failed {s : State} {c : List Color} (h : ¬ BuildsFrame s.cfg c) :
    buildSeq s c = (.failed .configurationError, s.clearSeq) := by
  unfold buildSeq
  split
  · rfl
  · rename_i hu
    rw [unsupportedSize_eq] at hu
    rw [if_pos]
    intro hl
    exact h ⟨by omega, by omega, hl⟩

/-! ## TRANSMIT (R171) -/

theorem startChannel_eq_started (s : State) : s.startChannel (s.seq.map wordOf) = started s s.seq := rfl

/-- Everything TRANSMIT can do when it is not refused. -/
theorem transmitSeq_ok {s t : State} {a : TxAnswer} (h : transmitSeq s = .ok (a, t)) :
    s.attached = true ∧
      ((s.drvState = .transmitting ∧ a = .resourceBusy ∧ t = s) ∨
        (s.drvState = .idle ∧ s.seqValid = true ∧ s.cfg.hwDepth < s.seq.length ∧ a = .bufferOverflow ∧ t = s.clearSeq) ∨
        (s.drvState = .idle ∧ s.seqValid = true ∧ s.seq.length ≤ s.cfg.hwDepth ∧ (∀ ts ∈ s.seq, InDomain ts) ∧
          a = .started ∧ t = started s s.seq)) := by
  unfold transmitSeq at h
  split at h
  · simp at h
  · rename_i ha
    refine ⟨by simpa using ha, ?_⟩
    split at h
    · rename_i hb
      simp only [Except.ok.injEq, Prod.mk.injEq] at h
      exact .inl ⟨hb, h.1.symm, h.2.symm⟩
    · rename_i hb
      have hidle : s.drvState = .idle := by
        cases hd : s.drvState <;> simp_all
      split at h
      · simp at h
      · rename_i hv
        have hv : s.seqValid = true := by simpa using hv
        split at h
        · rename_i hl
          simp only [Except.ok.injEq, Prod.mk.injEq] at h
          exact .inr (.inl ⟨hidle, hv, hl, h.1.symm, h.2.symm⟩)
        · rename_i hl
          split at h
          · simp at h
          · rename_i words hw
            obtain ⟨rfl, hdom⟩ := xlateAll_some hw
            simp only [Except.ok.injEq, Prod.mk.injEq] at h
            exact .inr (.inr ⟨hidle, hv, by omega, hdom, h.1.symm, by rw [← h.2, startChannel_eq_started]⟩)

theorem transmitSeq_busy {s : State} (ha : s.attached = true) (hd : s.drvState = .transmitting) :
    transmitSeq s = .ok (.resourceBusy, s) := by
  simp [transmitSeq, ha, hd]

theorem transmitSeq_overflow {s : State} (ha : s.attached = true) (hd : s.drvState = .idle) (hv : s.seqValid = true)
    (hl : s.cfg.hwDepth < s.seq.length) : transmitSeq s = .ok (.bufferOverflow, s.clearSeq) := by
  simp [transmitSeq, ha, hd, hv, hl]

theorem transmitSeq_started {s : State} (ha : s.attached = true) (hd : s.drvState = .idle) (hv : s.seqValid = true)
    (hl : s.seq.length ≤ s.cfg.hwDepth) (hx : ∀ ts ∈ s.seq, InDomain ts) :
    transmitSeq s = .ok (.started, started s s.seq) := by
  simp [transmitSeq, ha, hd, hv, Nat.not_lt.mpr hl, xlateAll_inDomain hx, startChannel_eq_started]

/-! ## start_frame (R231) -/

theorem startFrame_configurationError {s : State} {c : List Color} (h : ¬ BuildsFrame s.cfg c) :
    startFrame s c = .ok (s.clearSeq.respond (.failed .configurationError)) := by
  simp [startFrame, buildSeq_failed h]

theorem startFrame_busy {s : State} {c : List Color} (h : BuildsFrame s.cfg c) (ha : s.attached = true)
    (hd : s.drvState = .transmitting) : startFrame s c = .ok (s.clearSeq.respond (.failed .resourceBusy)) := by
  simp only [startFrame, buildSeq_ok h]
  rw [transmitSeq_busy (by exact ha) (by exact hd)]
  rfl

theorem startFrame_overflow {s : State} {c : List Color} (h : BuildsFrame s.cfg c) (ha : s.attached = true)
    (hd : s.drvState = .idle) (hl : s.cfg.hwDepth < frameLen s.cfg) :
    startFrame s c = .ok (s.clearSeq.respond (.failed .bufferOverflow)) := by
  simp only [startFrame, buildSeq_ok h]
  rw [transmitSeq_overflow (by exact ha) (by exact hd) rfl (by simpa [frameSymbols_length_frameLen _ _ h.2.2] using hl)]
  rfl

theorem startFrame_started {s : State} {c : List Color} (h : BuildsFrame s.cfg c) (ha : s.attached = true)
    (hd : s.drvState = .idle) (hl : frameLen s.cfg ≤ s.cfg.hwDepth) (hadm : admitted s.cfg = true) :
    startFrame s c = .ok { started s (frameSymbols s.cfg c) with taskState := .transmitting } := by
  simp only [startFrame, buildSeq_ok h]
  rw [transmitSeq_started (by exact ha) (by exact hd) rfl (by simpa [frameSymbols_length_frameLen _ _ h.2.2] using hl)
    (frameSymbols_inDomain hadm c)]
  rfl

/-- Everything start_frame can do when it is not refused. -/
theorem startFrame_ok {s t : State} {c : List Color} (h : startFrame s c = .ok t) :
    (¬ BuildsFrame s.cfg c ∧ t = s.clearSeq.respond (.failed .configurationError)) ∨
      (BuildsFrame s.cfg c ∧ s.attached = true ∧ s.drvState = .transmitting ∧ t = s.clearSeq.respond (.failed .resourceBusy)) ∨
      (BuildsFrame s.cfg c ∧ s.attached = true ∧ s.drvState = .idle ∧ s.cfg.hwDepth < frameLen s.cfg ∧
        t = s.clearSeq.respond (.failed .bufferOverflow)) ∨
      (BuildsFrame s.cfg c ∧ s.attached = true ∧ s.drvState = .idle ∧ frameLen s.cfg ≤ s.cfg.hwDepth ∧
        (∀ ts ∈ frameSymbols s.cfg c, InDomain ts) ∧
        t = { started s (frameSymbols s.cfg c) with taskState := .transmitting }) := by
  by_cases hb : BuildsFrame s.cfg c
  · right
    simp only [startFrame, buildSeq_ok hb] at h
    split at h
    · simp at h
    · rename_i s2 ht
      obtain ⟨ha, ⟨-, h2, -⟩ | ⟨hd, -, hl, -, rfl⟩ | ⟨-, -, -, -, h2, -⟩⟩ := transmitSeq_ok ht
      · simp at h2
      · refine .inr (.inl ⟨hb, ha, hd, by simpa [frameSymbols_length_frameLen _ _ hb.2.2] using hl, ?_⟩)
        exact (Except.ok.inj h).symm
      · simp at h2
    · rename_i s2 ht
      obtain ⟨ha, ⟨hd, -, rfl⟩ | ⟨-, -, -, h2, -⟩ | ⟨-, -, -, -, h2, -⟩⟩ := transmitSeq_ok ht
      · exact .inl ⟨hb, ha, hd, (Except.ok.inj h).symm⟩
      · simp at h2
      · simp at h2
    · rename_i s2 ht
      obtain ⟨ha, ⟨-, h2, -⟩ | ⟨-, -, -, h2, -⟩ | ⟨hd, -, hl, hx, -, rfl⟩⟩ := transmitSeq_ok ht
      · simp at h2
      · simp at h2
      · refine .inr (.inr ⟨hb, ha, hd, by simpa [frameSymbols_length_frameLen _ _ hb.2.2] using hl, hx, ?_⟩)
        exact (Except.ok.inj h).symm
  · rw [startFrame_configurationError hb] at h
    exact .inl ⟨hb, (Except.ok.inj h).symm⟩

/-- With the channel attached and the configuration admitted, start_frame is never refused. -/
theorem startFrame_total {s : State} (c : List Color) (ha : s.attached = true) (hadm : admitted s.cfg = true) :
    ∃ t, startFrame s c = .ok t := by
  by_cases hb : BuildsFrame s.cfg c
  · cases hd : s.drvState with
    | transmitting => exact ⟨_, startFrame_busy hb ha hd⟩
    | idle =>
      by_cases hl : frameLen s.cfg ≤ s.cfg.hwDepth
      · exact ⟨_, startFrame_started hb ha hd hl hadm⟩
      · exact ⟨_, startFrame_overflow hb ha hd (by omega)⟩
  · exact ⟨_, startFrame_configurationError hb⟩

/-! ## Steps (inversion) -/

@[simp] theorem stepOf_next {r : Except Refusal State} {t : State} : stepOf r = .next t ↔ r = .ok t := by
  cases r <;> simp [stepOf]

theorem execBuild_next {c : List Color} {s t : State} (h : execBuild c s = .next t) :
    colorsLegal s.cfg c = true ∧
      ((BuildsFrame s.cfg c ∧
          t = { s with seq := frameSymbols s.cfg c, seqValid := true, reply := some (.result .ok) }) ∨
        (¬ BuildsFrame s.cfg c ∧ t = s.clearSeq.raise .configurationError)) := by
  unfold execBuild at h
  split at h
  · simp at h
  · rename_i hc
    refine ⟨by simpa using hc, ?_⟩
    by_cases hb : BuildsFrame s.cfg c
    · rw [buildSeq_ok hb] at h
      exact .inl ⟨hb, (Host.Outcome.next.inj h).symm⟩
    · rw [buildSeq_failed hb] at h
      exact .inr ⟨hb, (Host.Outcome.next.inj h).symm⟩

theorem execAttach_next {s t : State} (h : execAttach s = .next t) :
    s.attached = false ∧ t = { s with attached := true, line := false, reply := some (.result .ok) } := by
  unfold execAttach at h
  split at h
  · simp at h
  · rename_i ha
    exact ⟨by simpa using ha, (Host.Outcome.next.inj h).symm⟩

theorem execTransmit_next {s t : State} (h : execTransmit s = .next t) :
    s.attached = true ∧
      ((s.drvState = .transmitting ∧ t = s.raise .resourceBusy) ∨
        (s.drvState = .idle ∧ s.seqValid = true ∧ s.cfg.hwDepth < s.seq.length ∧ t = s.clearSeq.raise .bufferOverflow) ∨
        (s.drvState = .idle ∧ s.seqValid = true ∧ s.seq.length ≤ s.cfg.hwDepth ∧ (∀ ts ∈ s.seq, InDomain ts) ∧
          t = (started s s.seq).give .started)) := by
  unfold execTransmit at h
  split at h
  · simp at h
  all_goals
    rename_i s1 ht
    obtain ⟨ha, ⟨hd, h2, rfl⟩ | ⟨hd, hv, hl, h2, rfl⟩ | ⟨hd, hv, hl, hx, h2, rfl⟩⟩ := transmitSeq_ok ht <;> cases h2
  · exact ⟨ha, .inr (.inr ⟨hd, hv, hl, hx, (Host.Outcome.next.inj h).symm⟩)⟩
  · exact ⟨ha, .inl ⟨hd, (Host.Outcome.next.inj h).symm⟩⟩
  · exact ⟨ha, .inr (.inl ⟨hd, hv, hl, (Host.Outcome.next.inj h).symm⟩)⟩

theorem execChreset_next {s t : State} (h : execChreset s = .next t) :
    s.attached = true ∧ s.drvState = .idle ∧ t = s.channelReset.give (.result .ok) := by
  unfold execChreset at h
  split at h
  · simp at h
  · rename_i ha
    split at h
    · simp at h
    · rename_i hd
      refine ⟨by simpa using ha, ?_, (Host.Outcome.next.inj h).symm⟩
      cases hs : s.drvState <;> simp_all

theorem execUpdate_next {c : List Color} {s t : State} (h : execUpdate c s = .next t) :
    colorsLegal s.cfg c = true ∧ s.attached = true ∧
      ((s.taskState = .idle ∧ startFrame s.giveNothing c = .ok t) ∨
        (s.taskState = .transmitting ∧ t = { s with pend := c, pendValid := true, reply := none })) := by
  unfold execUpdate at h
  split at h
  · simp at h
  · rename_i hc
    split at h
    · simp at h
    · rename_i ha
      refine ⟨by simpa using hc, by simpa using ha, ?_⟩
      split at h
      · rename_i hs
        exact .inl ⟨hs, stepOf_next.mp h⟩
      · rename_i hs
        exact .inr ⟨hs, (Host.Outcome.next.inj h).symm⟩

theorem execXlate_next {ts : TimingSymbol} {s t : State} (h : execXlate ts s = .next t) :
    InDomain ts ∧ t = s.give (.word (wordOf ts)) := by
  unfold execXlate at h
  split at h
  · rename_i w hw
    obtain rfl := xlate_eq_wordOf hw
    exact ⟨xlate_isSome_iff.mp (by simp [hw]), (Host.Outcome.next.inj h).symm⟩
  · simp at h

theorem execTick_next {s t : State} (h : execTick s = .next t) :
    t = { s with
      now := s.now + 1
      timer := if s.drvState = .transmitting then satIncr s.timer else s.timer
      reply := none } :=
  (Host.Outcome.next.inj h).symm

theorem execPEmit_next {s t : State} (h : execPEmit s = .next t) :
    s.pRun = true ∧ s.pIdx < s.sbLen ∧ programmedTime s.sb (s.pIdx + 1) ≤ s.timer ∧
      ∃ w, s.sb[s.pIdx]? = some w ∧ wordWf w = true ∧
        t = { s with wave := s.wave ++ wordRuns w, line := wordLvl1 w, pIdx := s.pIdx + 1, reply := none } := by
  unfold execPEmit at h
  split at h
  · rename_i he
    simp only [pEmitEnabled, Bool.and_eq_true, decide_eq_true_eq] at he
    split at h
    · simp at h
    · rename_i w hw
      split at h
      · rename_i hf
        exact ⟨he.1.1, he.1.2, he.2, w, hw, hf, (Host.Outcome.next.inj h).symm⟩
      · simp at h
  · simp at h

theorem execHwDone_next {s t : State} (h : execHwDone s = .next t) :
    s.pRun = true ∧ s.pIdx = s.sbLen ∧ t = { s with done := true, pRun := false, line := false, reply := none } := by
  unfold execHwDone at h
  split at h
  · rename_i he
    simp only [hwDoneEnabled, Bool.and_eq_true, decide_eq_true_eq] at he
    exact ⟨he.1, he.2, (Host.Outcome.next.inj h).symm⟩
  · simp at h

theorem execTxComplete_next {s t : State} (h : execTxComplete s = .next t) :
    s.drvState = .transmitting ∧ s.done = true ∧
      t = { s with drvResult := .ok, sb := [], sbLen := 0, pIdx := 0, done := false, drvState := .idle, reply := none } := by
  unfold execTxComplete at h
  split at h
  · rename_i he
    simp only [txCompleteEnabled, Bool.and_eq_true, decide_eq_true_eq] at he
    exact ⟨he.1, he.2, (Host.Outcome.next.inj h).symm⟩
  · simp at h

theorem execTxTimeout_next {s t : State} (h : execTxTimeout s = .next t) :
    s.drvState = .transmitting ∧ s.done = false ∧ s.timeout < s.timer ∧
      t = { s.giveNothing.channelReset with drvResult := .hardwareTimeout, drvState := .idle } := by
  unfold execTxTimeout at h
  split at h
  · rename_i he
    simp only [txTimeoutEnabled, Bool.and_eq_true, decide_eq_true_eq, Bool.not_eq_true'] at he
    exact ⟨he.1.1, he.1.2, he.2, (Host.Outcome.next.inj h).symm⟩
  · simp at h

/-- The result a posted DRV_RESULT stands for (R28). -/
theorem postedResult_some {d : DrvResult} {r : Result} (h : postedResult d = some r) :
    (d = .ok ∧ r = .ok) ∨ (d = .hardwareTimeout ∧ r = .failed .hardwareTimeout) := by
  cases d <;> simp_all [postedResult]

theorem execTaskFinish_next {s t : State} (h : execTaskFinish s = .next t) :
    s.taskState = .transmitting ∧ s.drvState = .idle ∧ ∃ r, postedResult s.drvResult = some r ∧
      ((s.pendValid = false ∧ t = s.finishFrame r) ∨
        (s.pendValid = true ∧ startFrame { s.finishFrame r with pend := [], pendValid := false } s.pend = .ok t)) := by
  unfold execTaskFinish at h
  split at h
  · rename_i r he hr
    simp only [taskFinishEnabled, Bool.and_eq_true, decide_eq_true_eq] at he
    refine ⟨he.1.1, he.1.2, r, hr, ?_⟩
    split at h
    · rename_i hv
      exact .inr ⟨hv, stepOf_next.mp h⟩
    · rename_i hv
      exact .inl ⟨by simpa using hv, (Host.Outcome.next.inj h).symm⟩
  · simp at h

theorem execReset_next {s t : State} (h : execReset s = .next t) :
    t = { State.resetWith s.cfg with port := s.port, sched := s.sched } :=
  (Host.Outcome.next.inj h).symm

/-! ## One step (R7) -/

/-- A step is the execution of what the schedule gives next. -/
theorem step_next {s t : State} (h : step s = .next t) :
    admitted s.cfg = true ∧ ∃ i s', fetch s = .ok (i, s') ∧ exec i s' = .next t := by
  unfold step at h
  split at h
  · rename_i hadm
    split at h
    · rename_i i s' hf
      exact ⟨hadm, i, s', hf, h⟩
    · simp at h
  · simp at h

/-- Taking an operation off the schedule touches no component of the block. -/
theorem fetch_ok {s s' : State} {i : Instr} (h : fetch s = .ok (i, s')) :
    s' = { s with sched := s'.sched, port := s'.port } := by
  unfold fetch at h
  split at h
  · simp at h
  · split at h
    · simp only [Except.ok.injEq, Prod.mk.injEq] at h
      rw [← h.2]
    · simp at h
  · split at h
    · simp only [Except.ok.injEq, Prod.mk.injEq] at h
      rw [← h.2]
    · simp at h

end Sys2Proof.Machine
end

