-- ==== Sys2Proof/Laws/PerInstr.lean ====
section
/-! SUPPORT. The facts stated per operation, one lemma per constructor of Instr. `LeadByte`: the encoded form leads with the op code of R96 or is
the label of R97, and it is a command form exactly for the commands. -/

namespace Sys2Proof.Laws.LeadByte

open Sys2Proof

/-- The op code of a command (R96) or the label of a function or event (R97). -/
def lead : Instr → Byte
  | .encbit _ => 0x01#8
  | .encbyte _ => 0x02#8
  | .build _ => 0x10#8
  | .attach => 0x20#8
  | .transmit => 0x21#8
  | .chreset => 0x22#8
  | .update _ => 0x30#8
  | .ticks _ => 0x80#8
  | .ticksUp _ => 0x81#8
  | .xlate _ => 0x82#8
  | .tick => 0xC0#8
  | .pEmit => 0xC1#8
  | .hwDone => 0xC2#8
  | .txComplete => 0xC3#8
  | .txTimeout => 0xC4#8
  | .taskFinish => 0xC5#8
  | .reset => 0xCF#8

/-- The encoded form carries the lead byte in its place, and has the form of the operation's kind. -/
def Statement (i : Instr) : Prop :=
  match encode i with
  | .command [] => False
  | .command (w :: _) => w.extractLsb' 24 8 = lead i ∧ i.kind = .command
  | .label id _ => id = lead i ∧ i.kind ≠ .command

theorem commandWord_op (op : Byte) (arg : BitVec 24) : (commandWord op arg).extractLsb' 24 8 = op := by
  apply BitVec.eq_of_getLsbD_eq
  intro i hi
  simp only [commandWord, BitVec.getLsbD_extractLsb', BitVec.getLsbD_append]
  interval_cases i <;> simp

theorem encbit (b : Bool) : Statement (.encbit b) := ⟨commandWord_op _ _, rfl⟩
theorem encbyte (v : Byte) : Statement (.encbyte v) := ⟨commandWord_op _ _, rfl⟩
theorem build (c : List Color) : Statement (.build c) := ⟨commandWord_op _ _, rfl⟩
theorem attach : Statement .attach := ⟨commandWord_op _ _, rfl⟩
theorem transmit : Statement .transmit := ⟨commandWord_op _ _, rfl⟩
theorem chreset : Statement .chreset := ⟨commandWord_op _ _, rfl⟩
theorem update (c : List Color) : Statement (.update c) := ⟨commandWord_op _ _, rfl⟩
theorem ticks (d : Nat) : Statement (.ticks d) := ⟨rfl, by simp [Instr.kind]⟩
theorem ticksUp (d : Nat) : Statement (.ticksUp d) := ⟨rfl, by simp [Instr.kind]⟩
theorem xlate (ts : TimingSymbol) : Statement (.xlate ts) := ⟨rfl, by simp [Instr.kind]⟩
theorem tick : Statement .tick := ⟨rfl, by simp [Instr.kind]⟩
theorem pEmit : Statement .pEmit := ⟨rfl, by simp [Instr.kind]⟩
theorem hwDone : Statement .hwDone := ⟨rfl, by simp [Instr.kind]⟩
theorem txComplete : Statement .txComplete := ⟨rfl, by simp [Instr.kind]⟩
theorem txTimeout : Statement .txTimeout := ⟨rfl, by simp [Instr.kind]⟩
theorem taskFinish : Statement .taskFinish := ⟨rfl, by simp [Instr.kind]⟩
theorem reset : Statement .reset := ⟨rfl, by simp [Instr.kind]⟩

end Sys2Proof.Laws.LeadByte
end

