-- ==== Sys2Proof/Laws/Runs.lean ====
section
/-! SUPPORT. Lists of operations taken one after another: the inversion of `execAll`, and the small lemmas of the counts along a run. -/

namespace Sys2Proof.Machine

open Sys2Proof
open Sys2Proof.Safety

@[simp] theorem execAll_nil (s : State) : execAll [] s = .next s := rfl

theorem execAll_cons {i : Instr} {is : List Instr} {s t : State} :
    execAll (i :: is) s = .next t ↔ ∃ u, exec i s = .next u ∧ execAll is u = .next t := by
  cases h : exec i s <;> simp [execAll, h]

theorem execAll_append {a b : List Instr} {s t : State} :
    execAll (a ++ b) s = .next t ↔ ∃ u, execAll a s = .next u ∧ execAll b u = .next t := by
  induction a generalizing s with
  | nil => simp
  | cons i a ih =>
    simp only [List.cons_append, execAll_cons, ih]
    constructor
    · rintro ⟨u, hu, v, hv, ht⟩
      exact ⟨v, ⟨u, hu, hv⟩, ht⟩
    · rintro ⟨v, ⟨u, hu, hv⟩, ht⟩
      exact ⟨u, hu, v, hv, ht⟩

theorem framesTakenUp_cons {i : Instr} {is : List Instr} {s u : State} (h : exec i s = .next u) :
    framesTakenUp (i :: is) s = takesUp s i + framesTakenUp is u := by
  simp [framesTakenUp, h]

theorem awaited_idle {s : State} (h : s.taskState = .idle) : awaited s = 0 := by
  simp [awaited, h]

theorem awaited_transmitting {s : State} (h : s.taskState = .transmitting) : awaited s = 1 := by
  simp [awaited, h]

/-- S(0) = 0 (R177). -/
@[simp] theorem programmedTime_zero (sb : List Word) : programmedTime sb 0 = 0 := by
  simp [programmedTime]

/-- S(i + 1) = S(i) + dur0 + dur1 of word i (R177). -/
theorem programmedTime_succ {sb : List Word} {i : Nat} {w : Word} (h : sb[i]? = some w) :
    programmedTime sb (i + 1) = programmedTime sb i + wordDur w := by
  simp [programmedTime, List.take_add_one, h]

end Sys2Proof.Machine
end

