-- ==== Sys2Proof/Machine/Written.lean ====
section
/-! DEFINITION. The written syntax of 30_encoding.md R104, one operation a line. -/

namespace Sys2Proof.Machine

open Sys2Proof

/-- `(r,g,b)` when CH = 3, `(r,g,b,w)` when CH = 4. -/
def writtenColor (ch : Nat) (c : Color) : String :=
  "(" ++ toString c.ch0.toNat ++ "," ++ toString c.ch1.toNat ++ "," ++ toString c.ch2.toNat ++
    (if ch = 4 then "," ++ toString c.ch3.toNat else "") ++ ")"

/-- `[<color>, ...]`. -/
def writtenColors (ch : Nat) (c : List Color) : String :=
  "[" ++ String.intercalate ", " (c.map (writtenColor ch)) ++ "]"

/-- What follows the mnemonic. -/
def writtenOperand (ch : Nat) : Instr → String
  | .encbit b => if b then " 1" else " 0"
  | .encbyte v => " " ++ toString v.toNat
  | .build c | .update c => " " ++ writtenColors ch c
  | .ticks d | .ticksUp d => " " ++ toString d
  | .xlate ts => " (" ++ toString ts.hi ++ "," ++ toString ts.lo ++ ")"
  | .attach | .transmit | .chreset | .tick | .pEmit | .hwDone | .txComplete | .txTimeout | .taskFinish | .reset => ""

/-- The written form of an operation. -/
def written (ch : Nat) (i : Instr) : String :=
  i.mnemonic ++ writtenOperand ch i

end Sys2Proof.Machine
end

