-- ==== Sys2Proof/Tests/Slice0.lean ====
section
/-! SUPPORT. Tests on small states, their expected results taken from the vectors of spec/95_test_vectors.md (T-..-n) or worked out from the
rule named, and the witnesses: for every statement with hypotheses, a state and operands that meet them together. -/

namespace Sys2Proof.Tests

open Sys2Proof
open Sys2Proof.Machine
open Sys2Proof.Safety

/-! ## Helpers -/

def nextOf (o : Host.Outcome State Fault Refusal) : Option State :=
  match o with
  | .next s => some s
  | .fault _ => none
  | .refused _ => none

def refusalOf (o : Host.Outcome State Fault Refusal) : Option Refusal :=
  match o with
  | .next _ => none
  | .fault _ => none
  | .refused r => some r

def faultOf (o : Host.Outcome State Fault Refusal) : Option Fault :=
  match o with
  | .next _ => none
  | .fault f => some f
  | .refused _ => none

def goesOn (o : Host.Outcome State Fault Refusal) : Bool :=
  (nextOf o).isSome

theorem goesOn_next {o : Host.Outcome State Fault Refusal} (h : goesOn o = true) : ∃ t, o = .next t := by
  cases o with
  | next t => exact ⟨t, rfl⟩
  | fault f => simp [goesOn, nextOf] at h
  | refused r => simp [goesOn, nextOf] at h

/-- REF80 with N = 1, ORDER = RGB. -/
def cfg1 : Config := Config.ref80 1 orderRGB

/-- REF80 with another strip size. -/
def cfgN (n : Nat) : Config := Config.ref80 n orderRGB

/-- CH = 4, GRBW, N = 1. -/
def cfg4 : Config := { Config.ref80 1 orderGRBW with ch := 4 }

/-- A fast configuration: 3 MHz and a latch time of 1000 ns, so a frame of zeros lasts 24 × 3 + 3 ticks. -/
def cfgFast : Config := { cfg1 with fTickHz := 3000000, tresetNs := 1000 }

/-- S0 of 95_test_vectors.md: after RESET and ATTACH. -/
def s0 (cfg : Config) : State := { State.resetWith cfg with attached := true }

def black : Color := ⟨0, 0, 0, 0⟩
def white : Color := ⟨255, 255, 255, 0⟩

/-- S0 with the zero frame built. -/
def loaded (cfg : Config) : State := { s0 cfg with seq := frameSymbols cfg [black], seqValid := true }

/-- The zero frame in flight (T-TX-3), at a given TIMER and P_IDX. -/
def flight (timer pIdx : Nat) : State :=
  { s0 cfg1 with
    drvState := .transmitting
    sb := List.replicate 24 0x0040801C#32 ++ [0x07D007D0#32]
    sbLen := 25
    txDur := 6208
    timeout := 14208
    timer := timer
    pIdx := pIdx
    pRun := true }

/-- The same after the channel has reported completion. -/
def finished (timer : Nat) : State := { flight timer 25 with pRun := false, done := true }

/-- The task waiting, the driver done, with a result posted. -/
def posted (cfg : Config) (r : DrvResult) : State := { s0 cfg with taskState := .transmitting, drvResult := r }

/-- The same with a pending frame. -/
def postedPending (cfg : Config) (c : List Color) : State := { posted cfg .ok with pend := c, pendValid := true }

/-! ## Well-formedness: each check refuses an ill-formed term -/

theorem test_wellFormed_accepts : Instr.wellFormed 3 (.build [⟨1, 2, 3, 0⟩]) = true := by decide
theorem test_wellFormed_refuses_white_at_three_channels : Instr.wellFormed 3 (.update [⟨1, 2, 3, 4⟩]) = false := by decide
theorem test_wellFormed_white_at_four_channels : Instr.wellFormed 4 (.update [⟨1, 2, 3, 4⟩]) = true := by decide
theorem test_wellFormed_refuses_65536_colors : Instr.wellFormed 4 (.build (List.replicate 65536 black)) = false := by
  have h : (List.replicate 65536 black).length = 65536 := List.length_replicate
  simp only [Instr.wellFormed, Instr.lenFits, h]
  decide

/-! ## Decoding (T-DE-1 to T-DE-16, R96, R97) -/

theorem test_decode_encbit : decode (.command [0b00000001000000000000000000000000#32]) = .ok (.encbit false) := by decide
theorem test_decode_encbit_reserved :
    decode (.command [0x01000002#32]) = .error (.reservedCommand 0x01000002#32) := by decide
theorem test_decode_encbyte : decode (.command [0b00000010000000000000000010100101#32]) = .ok (.encbyte 0xA5#8) := by decide
theorem test_decode_encbyte_reserved :
    decode (.command [0x02000100#32]) = .error (.reservedCommand 0x02000100#32) := by decide
theorem test_decode_build :
    decode (.command [0b00010000000000000000000000000001#32, 0x00030201#32]) = .ok (.build [⟨1, 2, 3, 0⟩]) := by decide
theorem test_decode_build_empty : decode (.command [0x10000000#32]) = .ok (.build []) := by decide
theorem test_decode_build_reserved :
    decode (.command [0x10010001#32, 0#32]) = .error (.reservedCommand 0x10010001#32) := by decide
theorem test_decode_build_short : decode (.command [0x10000002#32, 0#32]) = .error .missingColorWords := by decide
theorem test_decode_attach : decode (.command [0b00100000000000000000000000000000#32]) = .ok .attach := by decide
theorem test_decode_attach_reserved : decode (.command [0x20000001#32]) = .error (.reservedCommand 0x20000001#32) := by decide
theorem test_decode_transmit : decode (.command [0b00100001000000000000000000000000#32]) = .ok .transmit := by decide
theorem test_decode_chreset : decode (.command [0b00100010000000000000000000000000#32]) = .ok .chreset := by decide
theorem test_decode_update :
    decode (.command [0x30000003#32, 0x000000FF#32, 0x0000FF00#32, 0x00FF0000#32]) =
      .ok (.update [⟨255, 0, 0, 0⟩, ⟨0, 255, 0, 0⟩, ⟨0, 0, 255, 0⟩]) := by decide
theorem test_decode_update_four : decode (.command [0x30000001#32, 0x04030201#32]) = .ok (.update [⟨1, 2, 3, 4⟩]) := by decide
theorem test_decode_reserved_ops :
    [0x00000000#32, 0x03000000#32, 0x11000000#32, 0x23000000#32, 0x31000000#32, 0x80000000#32, 0xC0000000#32,
      0xFFFFFFFF#32].all (fun w => decode (.command [w]) = .error (.reservedCommand w)) = true := by decide
theorem test_decode_ticks : decode (.label 0b10000000#8 [350]) = .ok (.ticks 350) := by decide
theorem test_decode_ticksUp : decode (.label 0b10000001#8 [50000]) = .ok (.ticksUp 50000) := by decide
theorem test_decode_xlate : decode (.label 0b10000010#8 [28, 64]) = .ok (.xlate ⟨28, 64⟩) := by decide
theorem test_decode_events :
    [0b11000000#8, 0b11000001#8, 0b11000010#8, 0b11000011#8, 0b11000100#8, 0b11000101#8, 0b11001111#8].map
        (fun id => (decodeLabel id []).toOption) =
      [some .tick, some .pEmit, some .hwDone, some .txComplete, some .txTimeout, some .taskFinish, some .reset] := by decide
theorem test_decode_label_reserved : decode (.label 0xC6#8 []) = .error (.reservedLabel 0xC6#8) := by decide
theorem test_decodeTableWord_update : decodeTableWord 32 0x30000002 = some (.update [black, black]) := by decide
theorem test_decodeTableWord_xlate : decodeTableWord 8 0x82 = some (.xlate ⟨0, 0⟩) := by decide
theorem test_packOrder : packOrder orderGRB = 0x21 ∧ packOrder orderRGB = 0x24 ∧ packOrder orderGRBW = 0xE1 := by decide
theorem test_orderOfLetters : orderOfLetters ['G', 'R', 'B', 'W'] = some orderGRBW := by decide

/-! ## The translator (T-TK, T-CF, T-XL) -/

theorem test_ticks_tie_goes_up : ticksOf 10000000 350 = 4 ∧ ticksOf 2500000 600 = 2 ∧ ticksOf 80000000 6 = 0 := by decide
theorem test_ticks_exec :
    (nextOf (exec (.ticks 800) (s0 cfg1))).map (·.reply) = some (some (.count 64)) := by decide
theorem test_ticksUp : ticksUpOf 30000001 50000 = 1501 ∧ ticksOf 30000001 50000 = 1500 ∧ ticksUpOf 80000000 1 = 1 := by decide
theorem test_ticksUp_exec :
    (nextOf (exec (.ticksUp 280000) (s0 cfg1))).map (·.reply) = some (some (.count 22400)) := by decide
theorem test_within_ends_included :
    withinTol cfg1 16 350 = true ∧ withinTol cfg1 15 350 = false ∧ withinTol cfg1 40 350 = true ∧
      withinTol cfg1 41 350 = false := by decide
theorem test_admitted_rates :
    [80000000, 40000000, 20000000, 16000000, 10000000, 8000000, 5000000, 4000000, 3000000, 2500000, 2000000, 1000000].map
        (fun f => admitted { cfg1 with fTickHz := f }) =
      [true, true, true, true, true, true, true, true, true, false, false, false] := by decide
theorem test_admitted_other_checks :
    admitted { cfg1 with ch := 5 } = false ∧ admitted { cfg1 with order := [0, 0, 2] } = false ∧
      admitted { cfg1 with tresetNs := 900000 } = false ∧ longestTimeout cfg1 = 171744 ∧ admitted cfg4 = true := by decide
theorem test_xlate_words :
    [⟨28, 64⟩, ⟨56, 48⟩, ⟨0, 4000⟩, ⟨0, 4001⟩, ⟨0, 3⟩, ⟨0, 2⟩, ⟨0, 65534⟩, ⟨32767, 32767⟩, ⟨1, 1⟩].map xlate =
      [some 0x0040801C#32, some 0x00308038#32, some 0x07D007D0#32, some 0x07D007D1#32, some 0x00010002#32,
        some 0x00010001#32, some 0x7FFF7FFF#32, some 0x7FFFFFFF#32, some 0x00018001#32] := by decide
theorem test_xlate_refused :
    [⟨0, 1⟩, ⟨0, 65535⟩, ⟨0, 0⟩, ⟨32768, 1⟩, ⟨1, 0⟩].map (fun ts => refusalOf (exec (.xlate ts) (s0 cfg1))) =
      List.replicate 5 (some .symbolOutsideDomain) := by decide

/-! ## The Bit Encoder (T-EB) -/

theorem test_encbit_exec :
    (nextOf (exec (.encbit true) State.reset)).map (·.reply) = some (some (.symbol ⟨56, 48⟩)) := by decide
theorem test_encbit_ten_megahertz :
    encBit { cfg1 with fTickHz := 10000000 } false = ⟨4, 8⟩ ∧ encBit { cfg1 with fTickHz := 10000000 } true = ⟨7, 6⟩ := by decide
theorem test_encbyte_A5 :
    (nextOf (exec (.encbyte 0xA5#8) (s0 cfg1))).map (·.reply) =
      some (some (.symbols [⟨56, 48⟩, ⟨28, 64⟩, ⟨56, 48⟩, ⟨28, 64⟩, ⟨28, 64⟩, ⟨56, 48⟩, ⟨28, 64⟩, ⟨56, 48⟩])) := by decide
theorem test_encbyte_most_significant_first :
    encByte cfg1 0x80#8 = ⟨56, 48⟩ :: List.replicate 7 ⟨28, 64⟩ := by decide

/-! ## The builder (T-BD) -/

theorem test_build_wire_bytes_GRB :
    wireBytes (Config.ref80 2 orderGRB) [⟨255, 0, 0, 0⟩, ⟨0, 0, 1, 0⟩] = [0, 255, 0, 0, 0, 1] ∧
      wireBytes cfg4 [⟨1, 2, 3, 4⟩] = [2, 1, 3, 4] := by decide
theorem test_build_exec :
    (nextOf (exec (.build [white]) (loaded cfg1))).map (fun t => (t.seq, t.seqValid)) =
      some (List.replicate 24 ⟨56, 48⟩ ++ [⟨0, 4000⟩], true) := by decide
theorem test_build_length_mismatch_empties_seq :
    (nextOf (exec (.build []) (loaded cfg1))).map (fun t => (t.seq, t.seqValid, t.reply)) =
      some ([], false, some (.result (.failed .configurationError))) := by decide

/-! ## The driver and the channel (T-TX, T-EV) -/

theorem test_attach_exec : (nextOf (exec .attach State.reset)).map (·.attached) = some true := by decide
theorem test_attach_twice_refused : refusalOf (exec .attach (s0 cfg1)) = some .alreadyAttached := by decide
theorem test_transmit_starts : nextOf (exec .transmit (loaded cfg1)) = some { flight 0 0 with reply := some .started } := by decide
theorem test_transmit_depth_boundary :
    (nextOf (exec .transmit (loaded { cfg1 with hwDepth := 25 }))).map (·.reply) = some (some .started) ∧
      (nextOf (exec .transmit (loaded { cfg1 with hwDepth := 24 }))).map (fun t => (t.reply, t.seqValid, t.sbLen)) =
        some (some (.result (.failed .bufferOverflow)), false, 0) := by decide
theorem test_tick_counts_in_flight :
    (nextOf (exec .tick (flight 5 0))).map (fun t => (t.timer, t.now)) = some (6, 1) := by decide
theorem test_tick_saturates_and_rests :
    (nextOf (exec .tick (flight 4294967295 0))).map (·.timer) = some 4294967295 ∧
      (nextOf (exec .tick { s0 cfg1 with timer := 6208 })).map (·.timer) = some 6208 := by decide
theorem test_pEmit_at_92 :
    (nextOf (exec .pEmit (flight 92 0))).map (fun t => (t.wave, t.line, t.pIdx)) =
      some ([.run true 28, .run false 64], false, 1) := by decide
theorem test_pEmit_early_not_enabled :
    refusalOf (exec .pEmit (flight 91 0)) = some .pEmitNotEnabled ∧
      refusalOf (exec .pEmit (flight 6207 24)) = some .pEmitNotEnabled := by decide
theorem test_hwDone_exec :
    (nextOf (exec .hwDone (flight 6208 25))).map (fun t => (t.done, t.pRun)) = some (true, false) := by decide
theorem test_hwDone_not_enabled : refusalOf (exec .hwDone (flight 6208 24)) = some .hwDoneNotEnabled := by decide
theorem test_txComplete_wins_late :
    (nextOf (exec .txComplete (finished 20000))).map (fun t => (t.drvResult, t.drvState, t.sbLen, t.timer)) =
      some (.ok, .idle, 0, 20000) := by decide
theorem test_txComplete_not_enabled : refusalOf (exec .txComplete (flight 6208 25)) = some .txCompleteNotEnabled := by decide
theorem test_txTimeout_strict :
    refusalOf (exec .txTimeout (flight 14208 2)) = some .txTimeoutNotEnabled ∧
      refusalOf (exec .txTimeout (finished 20000)) = some .txTimeoutNotEnabled := by decide
theorem test_txTimeout_exec :
    (nextOf (exec .txTimeout (flight 14209 2))).map (fun t => (t.drvResult, t.wave, t.pRun, t.pIdx, t.sbLen, t.drvState)) =
      some (.hardwareTimeout, [.abort], false, 0, 0, .idle) := by decide
theorem test_chreset_idle : nextOf (exec .chreset (s0 cfg1)) = some { s0 cfg1 with reply := some (.result .ok) } := by decide
theorem test_chreset_in_flight_refused : refusalOf (exec .chreset (flight 0 0)) = some .transmissionInFlight := by decide

/-! ## The LED Task (T-UP) and RESET (T-RS) -/

theorem test_update_starts :
    nextOf (exec (.update [black]) (s0 cfg1)) = some { flight 0 0 with taskState := .transmitting } := by decide
theorem test_update_mismatch_reported :
    (nextOf (exec (.update (List.replicate 4 black)) (s0 (cfgN 5)))).map (fun t => (t.resp, t.taskState, t.sbLen)) =
      some ([.failed .configurationError], .idle, 0) := by decide
theorem test_taskFinish_idles :
    (nextOf (exec .taskFinish (posted cfg1 .hardwareTimeout))).map (fun t => (t.resp, t.drvResult, t.taskState)) =
      some ([.failed .hardwareTimeout], .noResult, .idle) := by decide
theorem test_taskFinish_pending_fails :
    (nextOf (exec .taskFinish (postedPending cfg1 [black, black]))).map (fun t => (t.resp, t.taskState, t.pendValid)) =
      some ([.ok, .failed .configurationError], .idle, false) := by decide
theorem test_reset_in_flight : nextOf (exec .reset (flight 300 3)) = some (State.resetWith cfg1) := by decide
theorem test_step_refuses_unadmitted :
    refusalOf (step ((State.resetWith { cfg1 with fTickHz := 1000000 }).withFetchWord 8 0xC0)) = some .configNotAdmitted := by decide
theorem test_step_reserved_color_word :
    refusalOf (step { s0 cfg1 with sched := [.command], port := [0x30000001#32, 0x01000000#32] }) = some .reservedColor := by decide
theorem test_written : written 3 (.update [⟨255, 0, 0, 0⟩]) = "UPDATE [(255,0,0)]" := by decide

/-! ## Witnesses: the hypotheses of each statement met together -/

theorem admitted_cfg1 : admitted cfg1 = true := by decide

/-- The invariant of a frame of zeros in flight. -/
theorem inv_flight {timer pIdx : Nat} (h1 : pIdx ≤ 25) (h2 : programmedTime (flight 0 0).sb pIdx ≤ timer) (h3 : timer < 2 ^ 32) :
    Inv (flight timer pIdx) where
  admitted := (by decide : admitted (flight 0 0).cfg = true)
  seqEmpty := fun _ => rfl
  seqFrame := fun h => absurd h (by simp [flight, s0, State.resetWith])
  idle := fun h => absurd h (by simp [flight])
  busy := fun _ => ⟨rfl, (by decide : 1 ≤ (flight 0 0).sbLen), (by decide : (flight 0 0).sbLen ≤ (flight 0 0).cfg.hwDepth), h1,
    (by decide : (flight 0 0).txDur = programmedTime (flight 0 0).sb (flight 0 0).sbLen), rfl, rfl, rfl, fun h => absurd h (by simp [flight, s0, State.resetWith]), h2⟩
  sbLen_eq := rfl
  sbWf := List.all_eq_true.mp (by decide : (flight 0 0).sb.all wordWf = true)
  pendIdle := fun _ => rfl
  pendEmpty := fun _ => rfl
  pendLen := (by decide : (flight 0 0).pend.length ≤ 65535)
  pendLegal := rfl
  taskAttached := fun _ => rfl
  low := rfl
  timer_lt := h3
  timeout_lt := (by decide : (flight 0 0).timeout < 2 ^ 32 - 1)
  txDur_lt := (by decide : (flight 0 0).txDur < 2 ^ 32 - 1)

/-- The same with the task waiting for it. -/
def waiting (timer pIdx : Nat) : State := { flight timer pIdx with taskState := .transmitting }

theorem inv_waiting {timer pIdx : Nat} (h1 : pIdx ≤ 25) (h2 : programmedTime (flight 0 0).sb pIdx ≤ timer) (h3 : timer < 2 ^ 32) :
    Inv (waiting timer pIdx) :=
  have h := inv_flight h1 h2 h3
  { admitted := h.admitted, seqEmpty := h.seqEmpty, seqFrame := h.seqFrame, idle := h.idle,
    busy := fun hb => { attached := (h.busy hb).attached, sbLen_pos := (h.busy hb).sbLen_pos, sbLen_le := (h.busy hb).sbLen_le,
                        pIdx_le := (h.busy hb).pIdx_le, txDur_eq := (h.busy hb).txDur_eq, timeout_eq := (h.busy hb).timeout_eq,
                        noResult := (h.busy hb).noResult, runXorDone := (h.busy hb).runXorDone,
                        doneAtEnd := (h.busy hb).doneAtEnd, notEarly := (h.busy hb).notEarly },
    sbLen_eq := h.sbLen_eq, sbWf := h.sbWf, pendIdle := fun _ => rfl, pendEmpty := h.pendEmpty, pendLen := h.pendLen,
    pendLegal := h.pendLegal, taskAttached := fun _ => rfl, low := h.low, timer_lt := h.timer_lt, timeout_lt := h.timeout_lt,
    txDur_lt := h.txDur_lt }

theorem taskForm_waiting (timer pIdx : Nat) : TaskForm (waiting timer pIdx) where
  idle := fun h => absurd h (by simp [waiting])
  waiting := fun _ => .inl rfl
  noSeq := rfl

/-- The invariant of an attached idle block, whatever its SEQ holds of one frame. -/
theorem inv_loaded (cfg : Config) (h : admitted cfg = true) (hn : cfg.n = 1) (hm : 1 ≤ cfg.nMax) : Inv (loaded cfg) where
  admitted := h
  seqEmpty := fun h => absurd h (by simp [loaded])
  seqFrame := fun _ => ⟨by rw [show (loaded cfg).cfg = cfg from rfl, hn],
    by rw [show (loaded cfg).cfg = cfg from rfl, hn]; exact hm, [black],
    by rw [show (loaded cfg).cfg = cfg from rfl, hn]; rfl, by simp [colorsLegal, Color.legal, black], rfl⟩
  idle := fun _ => ⟨rfl, rfl, rfl, rfl⟩
  busy := fun h => absurd h (by simp [loaded, s0, State.resetWith])
  sbLen_eq := rfl
  sbWf := fun w hw => absurd hw (by simp [loaded, s0, State.resetWith])
  pendIdle := fun _ => rfl
  pendEmpty := fun _ => rfl
  pendLen := by simp [loaded, s0, State.resetWith]
  pendLegal := rfl
  taskAttached := fun _ => rfl
  low := rfl
  timer_lt := by simp [loaded, s0, State.resetWith]
  timeout_lt := by simp [loaded, s0, State.resetWith]
  txDur_lt := by simp [loaded, s0, State.resetWith]

/-- The invariants with a result posted and a frame pending. -/
theorem inv_postedPending (cfg : Config) (c : List Color) (h : admitted cfg = true) (hl : c.length ≤ 65535)
    (hc : colorsLegal cfg c = true) : Inv (postedPending cfg c) := by
  constructor <;> simp_all [postedPending, posted, s0, State.resetWith]

theorem taskForm_postedPending (cfg : Config) (c : List Color) : TaskForm (postedPending cfg c) := by
  constructor <;> simp [postedPending, posted, s0, State.resetWith]

theorem witness_EncoderStaysWithinTolerance : admitted (s0 cfg1).cfg = true := by decide
theorem witness_EncoderIsInjective : admitted cfg1 = true ∧ encBit cfg1 true = encBit cfg1 true ∧
    encByte cfg1 0x80#8 = encByte cfg1 0x80#8 := by decide
theorem witness_TicksUpReturnsTheLeastSufficientCount : 50000 * (s0 cfg1).cfg.fTickHz ≤ 4000 * 1000000000 := by decide
theorem witness_XlateReturnsThePeripheralWord_bounds :
    InDomain ⟨1, 32767⟩ ∧ InDomain ⟨32767, 1⟩ ∧ InDomain ⟨0, 2⟩ ∧ InDomain ⟨0, 65534⟩ ∧ ¬ InDomain ⟨0, 1⟩ ∧
      ¬ InDomain ⟨0, 65535⟩ ∧ ¬ InDomain ⟨32768, 1⟩ ∧ ¬ InDomain ⟨1, 0⟩ := by
  unfold InDomain
  decide
theorem witness_XlateKeepsDurationAndHighTime : xlate ⟨0, 3⟩ = some 0x00010002#32 ∧ goesOn (exec .pEmit (flight 6208 24)) = true := by
  decide
theorem witness_AdmittedMeansV1ToV9 : admitted (State.resetWith { cfg1 with fTickHz := 2500000 }).cfg = false := by decide
theorem witness_BuildWritesTheFrameOrRaises :
    colorsLegal (cfgN 0) [] = true ∧ (cfgN 0).n = 0 ∧ colorsLegal (cfgN 65) [] = true ∧ (cfgN 65).nMax < (cfgN 65).n ∧
      colorsLegal (cfgN 5) (List.replicate 4 black) = true ∧ (List.replicate 4 black).length ≠ (cfgN 5).n ∧
      (cfgN 64).n ≠ 0 ∧ (cfgN 64).n ≤ (cfgN 64).nMax ∧ (List.replicate 64 black).length = (cfgN 64).n ∧
      colorsLegal (cfgN 64) (List.replicate 64 black) = true := by decide
theorem witness_ReservedColorRefusesTheCommand : (s0 cfg1).cfg.ch = 3 ∧ ∃ col ∈ [black, ⟨0, 0, 0, 1⟩], col.ch3 ≠ 0#8 := by decide
theorem witness_FrameSymbolsStandAtTheirIndex :
    [black, white][1]? = some white ∧ 2 < cfg1.ch ∧ 7 < 8 ∧ 47 < [black, white].length * cfg1.ch * 8 := by decide
theorem witness_BuiltFrameHasOneResetSymbolLast :
    admitted cfg1 = true ∧ (nextOf (exec (.build [white]) (s0 cfg1))).map (·.reply) = some (some (.result .ok)) := by decide
theorem witness_FrameSymbolsAreInjective :
    admitted cfg4 = true ∧ colorsLegal cfg4 [⟨1, 2, 3, 4⟩] = true ∧ [⟨1, 2, 3, 4⟩][0]? = some (⟨1, 2, 3, 4⟩ : Color) ∧ 3 < cfg4.ch := by
  decide
theorem witness_AttachHandsTheChannelOverOnce : State.reset.attached = false ∧ (s0 cfg1).attached = true := by decide
theorem witness_TransmitStartsOrRaises :
    State.reset.attached = false ∧
      ((flight 0 0).attached = true ∧ (flight 0 0).drvState = .transmitting) ∧
      ((s0 cfg1).attached = true ∧ (s0 cfg1).drvState = .idle ∧ (s0 cfg1).seqValid = false) ∧
      ((loaded { cfg1 with hwDepth := 24 }).seqValid = true ∧ 24 < (loaded { cfg1 with hwDepth := 24 }).seq.length) ∧
      ((loaded cfg1).attached = true ∧ (loaded cfg1).drvState = .idle ∧ (loaded cfg1).seqValid = true ∧
        (loaded { cfg1 with hwDepth := 25 }).seq.length ≤ 25) := by decide
theorem witness_TransmitStartsOrRaises_domain : ∀ ts ∈ (loaded cfg1).seq, InDomain ts :=
  frameSymbols_inDomain admitted_cfg1 [black]
theorem witness_TransmitRefusesASymbolOutsideTheDomain :
    (loaded cfg1).attached = true ∧ (loaded cfg1).drvState = .idle ∧ (loaded cfg1).seqValid = true ∧
      ({ loaded cfg1 with seq := [⟨0, 1⟩] } : State).seq.length ≤ cfg1.hwDepth ∧ ¬ InDomain ⟨0, 1⟩ ∧
      refusalOf (exec .transmit { loaded cfg1 with seq := [⟨0, 1⟩] }) = some .symbolOutsideDomain := by
  unfold InDomain
  decide
theorem witness_TimeoutIsTheFrameDurationPlusMargin :
    [black].length = (loaded cfg1).cfg.n ∧ (loaded cfg1).seq = frameSymbols (loaded cfg1).cfg [black] ∧
      (loaded cfg1).drvState = .idle ∧ (nextOf (exec .transmit (loaded cfg1))).map (·.drvState) = some .transmitting := by decide
theorem witness_ChresetResetsAnIdleChannel :
    State.reset.attached = false ∧ ((flight 0 0).attached = true ∧ (flight 0 0).drvState = .transmitting) ∧
      Inv (loaded cfg1) ∧ (loaded cfg1).attached = true ∧ (loaded cfg1).drvState = .idle :=
  ⟨rfl, ⟨rfl, rfl⟩, inv_loaded cfg1 admitted_cfg1 rfl (by decide), rfl, rfl⟩
theorem witness_PEmitSendsTheNextSymbol :
    Inv (flight 6208 24) ∧ (flight 6208 24).pRun = true ∧ (flight 6208 24).pIdx < (flight 6208 24).sbLen ∧
      (((flight 6208 24).sb.take 25).map fun x => wordDur0 x + wordDur1 x).sum ≤ (flight 6208 24).timer ∧
      (flight 6208 24).sb[24]? = some 0x07D007D0#32 ∧ 1 ≤ wordDur0 0x07D007D0#32 ∧ 1 ≤ wordDur1 0x07D007D0#32 ∧
      wordLvl1 0x07D007D0#32 = false :=
  ⟨inv_flight (by decide) (by decide) (by decide), by decide⟩
theorem witness_PEmitSendsTheNextSymbol_early :
    ¬ (((flight 91 0).sb.take 1).map fun x => wordDur0 x + wordDur1 x).sum ≤ (flight 91 0).timer := by decide
theorem witness_HwDoneReportsAfterTheLastSymbol :
    Inv (flight 6208 25) ∧ (flight 6208 25).pRun = true ∧ (flight 6208 25).pIdx = (flight 6208 25).sbLen ∧
      goesOn (exec .hwDone (flight 6208 25)) = true ∧ ¬ (flight 6208 24).pIdx = (flight 6208 24).sbLen :=
  ⟨inv_flight (by decide) (by decide) (by decide), by decide⟩
theorem witness_TxCompletePostsOk :
    (finished 20000).drvState = .transmitting ∧ (finished 20000).done = true ∧ ¬ (flight 0 0).done = true := by decide
theorem witness_TxTimeoutPostsAndResets :
    (flight 14209 2).drvState = .transmitting ∧ (flight 14209 2).done = false ∧ (flight 14209 2).timeout < (flight 14209 2).timer ∧
      ¬ (flight 14208 2).timeout < (flight 14208 2).timer ∧ (finished 20000).timeout < (finished 20000).timer := by decide
theorem witness_UpdateStartsPendsOrReports :
    colorsLegal cfg1 [black] = true ∧ State.reset.attached = false ∧
      ((waiting 0 0).attached = true ∧ (waiting 0 0).taskState = .transmitting) ∧
      ((s0 cfg1).attached = true ∧ (s0 cfg1).taskState = .idle ∧ ¬ [black, black].length = cfg1.n) ∧
      ((flight 0 0).taskState = .idle ∧ (flight 0 0).drvState = .transmitting) ∧
      ((s0 (cfgN 22)).drvState = .idle ∧ (cfgN 22).hwDepth < (cfgN 22).n * (cfgN 22).ch * 8 + 1) ∧
      ((s0 (cfgN 21)).drvState = .idle ∧ (cfgN 21).n * (cfgN 21).ch * 8 + 1 ≤ (cfgN 21).hwDepth ∧ admitted (cfgN 21) = true) := by
  decide
theorem witness_UpdateStartsPendsOrReports_builds :
    BuildsFrame cfg1 [black] ∧ BuildsFrame (cfgN 22) (List.replicate 22 black) ∧ BuildsFrame (cfgN 21) (List.replicate 21 black) ∧
      ¬ BuildsFrame cfg1 [] := by
  simp only [BuildsFrame]
  decide
theorem witness_LaterRequestSupersedesThePendingOne :
    (waiting 0 0).attached = true ∧ (waiting 0 0).taskState = .transmitting ∧ colorsLegal (waiting 0 0).cfg [white] = true ∧
      colorsLegal (waiting 0 0).cfg [black] = true := by decide
theorem witness_TaskFinishReportsThenStartsThePendingFrame :
    ¬ (waiting 0 0).drvState = .idle ∧
      ((posted cfg1 .ok).taskState = .transmitting ∧ (posted cfg1 .ok).drvState = .idle ∧ (posted cfg1 .ok).drvResult ≠ .noResult ∧
        (posted cfg1 .ok).pendValid = false) ∧
      ((postedPending cfg1 [black]).pendValid = true ∧ (postedPending cfg1 [black]).attached = true ∧
        (postedPending cfg1 [black]).drvResult ≠ .noResult) := by decide
theorem witness_TaskFinishReportsThenStartsThePendingFrame_pending :
    ¬ BuildsFrame (postedPending cfg1 []).cfg (postedPending cfg1 []).pend ∧
      BuildsFrame (cfgN 22) (postedPending (cfgN 22) (List.replicate 22 black)).pend ∧
      (cfgN 22).hwDepth < (cfgN 22).n * (cfgN 22).ch * 8 + 1 ∧
      BuildsFrame cfg1 (postedPending cfg1 [black]).pend ∧ cfg1.n * cfg1.ch * 8 + 1 ≤ cfg1.hwDepth ∧ admitted cfg1 = true := by
  simp only [BuildsFrame]
  decide
theorem witness_FrameIsSentExactlyUpToNFit :
    admitted (cfgN 21) = true ∧ (s0 (cfgN 21)).attached = true ∧ (s0 (cfgN 21)).taskState = .idle ∧ (s0 (cfgN 21)).drvState = .idle ∧
      colorsLegal (cfgN 21) (List.replicate 21 black) = true ∧ (List.replicate 21 black).length = (cfgN 21).n ∧ nFit (cfgN 21) = 21 := by
  decide
theorem witness_UpdateIsNeverWedged : Inv (flight 0 0) ∧ (flight 0 0).attached = true ∧ colorsLegal (flight 0 0).cfg [black] = true :=
  ⟨inv_flight (by decide) (by decide) (by decide), by decide⟩
theorem witness_ResetMeetsTheInvariants : admitted cfg4 = true ∧ admitted State.reset.cfg = true := by decide
theorem witness_DecodeOfEncodeIsTheOperation :
    (Instr.update [black]).lenFits = true ∧ encode (.update [black]) = .command [0x30000001#32, 0#32] := by decide
theorem witness_EncodeOfDecodeIsTheEncodedForm : decode (.command [0x10000001#32, 0x00030201#32]) = .ok (.build [⟨1, 2, 3, 0⟩]) := by
  decide
theorem witness_ReservedCommandWordsAreRefused :
    ¬ (0x01000002#32 &&& 0xFFFFFFFE#32 = 0x01000000#32 ∨ 0x01000002#32 &&& 0xFFFFFF00#32 = 0x02000000#32 ∨
      0x01000002#32 &&& 0xFFFF0000#32 = 0x10000000#32 ∨ 0x01000002#32 = 0x20000000#32 ∨ 0x01000002#32 = 0x21000000#32 ∨
      0x01000002#32 = 0x22000000#32 ∨ 0x01000002#32 &&& 0xFFFF0000#32 = 0x30000000#32) ∧
      refusalOf (step { s0 cfg1 with sched := [.command], port := [0x01000002#32] }) = some .notDecodable := by decide
theorem witness_StepRunsTheScheduledOperation :
    admitted (s0 cfg1).cfg = true ∧ decodeCommand [0x10000001#32, 0#32, 0x20000000#32] = .ok (.build [black], [0x20000000#32]) ∧
      decodeLabel 0xC0#8 [] = .ok .tick ∧ (s0 cfg1).sched = [] := by decide
theorem witness_PlacedOperationIsTheNextStep :
    admitted State.reset.cfg = true ∧ decodeTableWord 32 0x10000001 = some (.build [black]) ∧ decodeTableWord 8 0xC1 = some .pEmit ∧
      goesOn (step (State.reset.withFetchWord 32 0x20000000)) = true := by decide
theorem witness_StepKeepsTheInvariant :
    Inv (flight 0 0) ∧ goesOn (step { flight 0 0 with sched := [.label 0xC0#8 []] }) = true :=
  ⟨inv_flight (by decide) (by decide) (by decide), by decide⟩
theorem witness_DutifulStepKeepsTheTaskForm :
    Inv (waiting 91 0) ∧ TaskForm (waiting 91 0) ∧ keepsDuty .tick = true ∧
      ((fetch { waiting 91 0 with sched := [.label 0xC0#8 []] }).toOption.map (·.1)) = some .tick :=
  ⟨inv_waiting (by decide) (by decide) (by decide), taskForm_waiting _ _, by decide, by decide⟩
theorem witness_OnlyListedOperationsWriteAComponent : goesOn (exec .pEmit (flight 92 0)) = true := by decide
theorem witness_FlagsAreSetAndClearedAsListed :
    ((s0 cfg1).drvState = .idle ∧ (nextOf (exec (.update [black]) (s0 cfg1))).map (·.drvState) = some .transmitting) ∧
      ((finished 6208).done = true ∧ (nextOf (exec .txComplete (finished 6208))).map (·.done) = some false) := by decide
theorem witness_NoTwoTransmissionsOverlap :
    Inv (loaded cfg1) ∧ (nextOf (exec .transmit (loaded cfg1))).map (·.pRun) = some true ∧
      Inv (flight 0 0) ∧ (flight 0 0).drvState = .transmitting :=
  ⟨inv_loaded cfg1 admitted_cfg1 rfl (by decide), by decide, inv_flight (by decide) (by decide) (by decide), rfl⟩
theorem witness_NothingStopsATransmissionInFlight :
    Inv (waiting 92 0) ∧ (waiting 92 0).drvState = .transmitting ∧ leavesInFlight (.update [white]) = true ∧
      goesOn (exec (.update [white]) (waiting 92 0)) = true ∧ goesOn (exec .pEmit (waiting 92 0)) = true :=
  ⟨inv_waiting (by decide) (by decide) (by decide), by decide⟩
theorem witness_NothingStopsATransmissionInFlight_timeout :
    Inv (flight 14209 2) ∧ goesOn (exec .txTimeout (flight 14209 2)) = true :=
  ⟨inv_flight (by decide) (by decide) (by decide), by decide⟩
theorem witness_DriverAndTaskOnlyWait :
    (finished 6208).drvState = .transmitting ∧ goesOn (exec .txComplete (finished 6208)) = true ∧ Instr.txComplete.agent = some .drv := by
  decide

/-- What may happen between the start and the end of a frame of zeros under `cfgFast`: time passes, every symbol leaves, completion is reported. -/
def betweenFast : List Instr := tickTimes 75 ++ List.replicate 25 .pEmit ++ [.hwDone]

theorem witness_CompletedTransmissionSendsExactlyItsSequence_in_flight :
    Inv (flight 6208 24) ∧ (flight 6208 24).drvState = .transmitting ∧
      [.update [white], .pEmit, .tick, .hwDone].all leavesInFlight = true ∧
      goesOn (execAll [.update [white], .pEmit, .tick, .hwDone, .txComplete] (flight 6208 24)) = true :=
  ⟨inv_flight (by decide) (by decide) (by decide), by decide⟩
theorem witness_CompletedTransmissionSendsExactlyItsSequence_from_the_start :
    betweenFast.all leavesInFlight = true ∧
      (Inv (loaded cfgFast) ∧ (nextOf (exec .transmit (loaded cfgFast))).map (·.drvState) = some .transmitting ∧
        (nextOf (exec (.update [white]) (loaded cfgFast))).map (·.drvState) = some .transmitting ∧
        goesOn (execAll (.update [black] :: betweenFast ++ [.txComplete]) (loaded cfgFast)) = true) ∧
      (Inv (postedPending cfgFast [black]) ∧ (postedPending cfgFast [black]).drvState = .idle ∧
        (nextOf (exec .taskFinish (postedPending cfgFast [black]))).map (·.drvState) = some .transmitting) :=
  ⟨by decide, ⟨inv_loaded cfgFast (by decide) rfl (by decide), by decide, by decide, by decide +kernel⟩,
    inv_postedPending cfgFast [black] (by decide) (by decide) (by decide), by decide, by decide⟩
theorem witness_HealthyTransmissionCannotTimeOut :
    (flight 14208 25).timer ≤ (flight 14208 25).timeout ∧ Inv (flight 14208 25) ∧ goesOn (exec .hwDone (flight 14208 25)) = true ∧
      goesOn (execAll [.hwDone, .tick, .update [black]] (flight 14208 25)) = true :=
  ⟨by decide, inv_flight (by decide) (by decide) (by decide), by decide, by decide⟩
theorem witness_DrainCompletesTheTransmission : Inv (flight 91 0) ∧ drainLegal (flight 91 0) = true :=
  ⟨inv_flight (by decide) (by decide) (by decide), by decide⟩
theorem witness_StalledTransmissionTimesOut : Inv (flight 14208 25) ∧ stallLegal (flight 14208 25) = true :=
  ⟨inv_flight (by decide) (by decide) (by decide), by decide⟩
theorem witness_StartedFrameCanBeBroughtToItsAnswer :
    (Inv (waiting 6208 24) ∧ TaskForm (waiting 6208 24) ∧ (waiting 6208 24).taskState = .transmitting ∧
        (waiting 6208 24).pendValid = false) ∧
      (Inv (postedPending cfg1 [black]) ∧ TaskForm (postedPending cfg1 [black]) ∧
        (postedPending cfg1 [black]).taskState = .transmitting ∧ (postedPending cfg1 [black]).pendValid = true) :=
  ⟨⟨inv_waiting (by decide) (by decide) (by decide), taskForm_waiting _ _, rfl, rfl⟩,
    inv_postedPending cfg1 [black] admitted_cfg1 (by decide) (by decide), taskForm_postedPending _ _, rfl, rfl⟩
theorem witness_EveryFrameTakenUpGetsOneEntry :
    (∀ i ∈ [Instr.update [black, black], .update [black]], i ≠ .reset) ∧
      goesOn (execAll [.update [black, black], .update [black]] (s0 cfg1)) = true ∧
      framesTakenUp [.update [black, black], .update [black]] (s0 cfg1) = 2 := by
  refine ⟨by simp, by decide, by decide⟩
theorem witness_EveryWaitEndsOnceTheTimeoutHasPassed :
    (Inv (flight 14207 25) ∧ (flight 14207 25).drvState = .transmitting ∧ [.tick, .tick].all leavesInFlight = true ∧
        goesOn (execAll [.tick, .tick] (flight 14207 25)) = true ∧
        (flight 14207 25).timeout < (flight 14207 25).timer + [Instr.tick, .tick].count .tick) ∧
      (Inv (postedPending cfg1 [black]) ∧ (postedPending cfg1 [black]).drvResult ≠ .noResult ∧
        [.tick, .update [white]].all leavesResult = true ∧
        goesOn (execAll [.tick, .update [white]] (postedPending cfg1 [black])) = true) :=
  ⟨⟨inv_flight (by decide) (by decide) (by decide), by decide⟩,
    inv_postedPending cfg1 [black] admitted_cfg1 (by decide) (by decide), by decide⟩

end Sys2Proof.Tests
end

-- ==== State and flags: proofs ====
section
/-! PROOF. The family of 10_state.md: which operations set and clear each flag (R40), and the values after reset (R46). -/

namespace Sys2Proof.Machine

open Sys2Proof
open Sys2Proof.Safety

/-- Of the flags, start_frame leaves ATTACHED and PEND_VALID as they are and SEQ_VALID clear; the other four stay,
or a start from an idle driver gives each its value of a transmission in flight. -/
theorem startFrame_flags {s t : State} {c : List Color} (h : startFrame s c = .ok t) :
    t.attached = s.attached ∧ t.pendValid = s.pendValid ∧ t.seqValid = false ∧
      ((t.taskState = s.taskState ∧ t.drvState = s.drvState ∧ t.done = s.done ∧ t.pRun = s.pRun) ∨
        (s.drvState = .idle ∧ t.taskState = .transmitting ∧ t.drvState = .transmitting ∧ t.done = false ∧ t.pRun = true)) := by
  obtain ⟨-, rfl⟩ | ⟨-, -, -, rfl⟩ | ⟨-, -, -, -, rfl⟩ | ⟨-, -, hidle, -, -, rfl⟩ := startFrame_ok h
  case inr.inr.inr => simp [started, hidle]
  all_goals simp

/-- Settles O40, operation by operation: the inversion lemma gives the next state, each flag it changes has the operation on its list, and the
flags it does not write meet their clauses because they stay. UPDATE and TASK_FINISH start a frame through `startFrame_flags`. -/
theorem flagsAreSetAndClearedAsListed : Obligations.FlagsAreSetAndClearedAsListed := by
  intro i s t h
  cases i with
  | encbit _ | encbyte _ | ticks _ | ticksUp _ =>
    obtain rfl := Host.Outcome.next.inj h
    simp +contextual
  | xlate ts =>
    obtain ⟨-, rfl⟩ := execXlate_next h
    simp +contextual
  | build c =>
    obtain ⟨-, ⟨-, rfl⟩ | ⟨-, rfl⟩⟩ := execBuild_next h <;> simp +contextual [Instr.mnemonic]
  | attach =>
    obtain ⟨-, rfl⟩ := execAttach_next h
    simp +contextual [Instr.mnemonic]
  | transmit =>
    obtain ⟨-, ⟨-, rfl⟩ | ⟨-, -, -, rfl⟩ | ⟨-, -, -, -, rfl⟩⟩ := execTransmit_next h <;>
      simp +contextual [Instr.mnemonic, started]
  | chreset =>
    obtain ⟨-, -, rfl⟩ := execChreset_next h
    simp +contextual [Instr.mnemonic]
  | update c =>
    obtain ⟨-, -, ⟨-, hf⟩ | ⟨-, rfl⟩⟩ := execUpdate_next h
    · obtain ⟨ha, hp, hv, ⟨ht, hd, hn, hr⟩ | ⟨-, ht, hd, hn, hr⟩⟩ := startFrame_flags hf <;>
        simp +contextual [Instr.mnemonic, *]
    · simp +contextual [Instr.mnemonic]
  | tick =>
    obtain rfl := execTick_next h
    simp +contextual
  | pEmit =>
    obtain ⟨-, -, -, _, -, -, rfl⟩ := execPEmit_next h
    simp +contextual
  | hwDone =>
    obtain ⟨-, -, rfl⟩ := execHwDone_next h
    simp +contextual [Instr.mnemonic]
  | txComplete =>
    obtain ⟨-, -, rfl⟩ := execTxComplete_next h
    simp +contextual [Instr.mnemonic]
  | txTimeout =>
    obtain ⟨-, -, -, rfl⟩ := execTxTimeout_next h
    simp +contextual [Instr.mnemonic]
  | taskFinish =>
    obtain ⟨-, -, r, -, ⟨-, rfl⟩ | ⟨-, hf⟩⟩ := execTaskFinish_next h
    · simp +contextual [Instr.mnemonic]
    · obtain ⟨ha, hp, hv, ⟨ht, hd, hn, hr⟩ | ⟨-, ht, hd, hn, hr⟩⟩ := startFrame_flags hf <;>
        simp +contextual [Instr.mnemonic, *]
  | reset =>
    obtain rfl := execReset_next h
    simp +contextual [Instr.mnemonic, State.resetWith]

/-- Settles O30: the tabulated values by comparing each component, their numbers by evaluating the view of R41. -/
theorem resetStateHasTheTabulatedValues : Obligations.ResetStateHasTheTabulatedValues := by
  constructor
  · decide
  · rfl

end Sys2Proof.Machine
end

-- ==== Memory: proofs ====
section
/-! PROOF. The family of 20_memory.md: where each symbol of a frame stands (R64, R150). -/

namespace Sys2Proof.Machine

open Sys2Proof

/-- In a concatenation of blocks of `k` elements each, element `j` of block `i` stands at `i * k + j`. -/
theorem getElem?_flatMap_const {α β : Type} {f : α → List β} {k : Nat} (hf : ∀ a, (f a).length = k) {l : List α}
    {i j : Nat} {a : α} (hi : l[i]? = some a) (hj : j < k) : (l.flatMap f)[i * k + j]? = (f a)[j]? := by
  induction l generalizing i with
  | nil => simp at hi
  | cons b l ih =>
    rw [List.flatMap_cons]
    cases i with
    | zero =>
      obtain rfl : b = a := by simpa using hi
      rw [Nat.zero_mul, Nat.zero_add, List.getElem?_append_left (by rwa [hf])]
    | succ i =>
      have hshift : (i + 1) * k + j = (f b).length + (i * k + j) := by rw [hf, Nat.succ_mul]; omega
      rw [hshift, List.getElem?_append_right (Nat.le_add_right _ _), Nat.add_sub_cancel_left]
      exact ih (by simpa using hi)

theorem pixelBytes_getElem? (cfg : Config) (col : Color) {c : Nat} (hc : c < cfg.ch) :
    (pixelBytes cfg col)[c]? = some (colorCh col (cfg.order.getD c 0)) := by
  simp [pixelBytes, wireIndex, hc]

/-- The wire bytes are pixel-major (R153): wire position `c` of pixel `p` stands at `p × CH + c`. -/
theorem wireBytes_getElem? (cfg : Config) {cb : List Color} {p c : Nat} {col : Color} (hp : cb[p]? = some col)
    (hc : c < cfg.ch) : (wireBytes cfg cb)[p * cfg.ch + c]? = some (colorCh col (cfg.order.getD c 0)) := by
  rw [wireBytes, getElem?_flatMap_const (pixelBytes_length cfg) hp hc, pixelBytes_getElem? cfg col hc]

/-- Most significant bit first (R61). -/
theorem encByte_getElem? (cfg : Config) (v : Byte) {j : Nat} (hj : j < 8) :
    (encByte cfg v)[j]? = some (encBit cfg (v.getLsbD (7 - j))) := by
  interval_cases j <;> rfl

/-- ENCBIT of a bit of a byte, the bit read off by arithmetic. -/
theorem encBit_getLsbD (cfg : Config) (v : Byte) (i : Nat) :
    encBit cfg (v.getLsbD i) = if v.toNat / 2 ^ i % 2 = 1 then symOne cfg else symZero cfg := by
  simp [encBit, BitVec.getLsbD, Nat.testBit_eq_decide_div_mod_eq]

/-- A wire byte's symbols stand in the frame before the RESET-symbol, eight to a byte (R150). -/
theorem frameSymbols_getElem?_of_wireByte (cfg : Config) {cb : List Color} {i j : Nat} {v : Byte}
    (hv : (wireBytes cfg cb)[i]? = some v) (hj : j < 8) :
    (frameSymbols cfg cb)[i * 8 + j]? = some (encBit cfg (v.getLsbD (7 - j))) := by
  have hdata : ((wireBytes cfg cb).flatMap (encByte cfg))[i * 8 + j]? = some (encBit cfg (v.getLsbD (7 - j))) := by
    rw [getElem?_flatMap_const (encByte_length cfg) hv hj, encByte_getElem? cfg v hj]
  obtain ⟨hlt, -⟩ := List.getElem?_eq_some_iff.mp hdata
  rw [frameSymbols, List.getElem?_append_left hlt, hdata]

theorem frameSymbols_getElem?_last (cfg : Config) (cb : List Color) :
    (frameSymbols cfg cb)[cb.length * cfg.ch * 8]? = some (symReset cfg) := by
  have hlen : ((wireBytes cfg cb).flatMap (encByte cfg)).length = cb.length * cfg.ch * 8 := by
    rw [flatMap_length_const _ 8 (encByte_length cfg), wireBytes_length]
  rw [frameSymbols, ← hlen, List.getElem?_concat_length]

/-- The inverse of k(p, c, j) (R64): a data index below `n × CH × 8` is k of the pixel, wire position and bit step
it splits into. -/
theorem symbolIndex_split (cfg : Config) {n k : Nat} (hk : k < n * cfg.ch * 8) :
    k / (8 * cfg.ch) < n ∧ k / 8 % cfg.ch < cfg.ch ∧
      symbolIndex cfg (k / (8 * cfg.ch)) (k / 8 % cfg.ch) (k % 8) = k := by
  have hbyte : k / 8 < n * cfg.ch := by omega
  have hch : 0 < cfg.ch := Nat.pos_of_mul_pos_left (Nat.zero_lt_of_lt hbyte)
  rw [← Nat.div_div_eq_div_mul]
  refine ⟨Nat.div_lt_of_lt_mul (by rwa [Nat.mul_comm]), Nat.mod_lt _ hch, ?_⟩
  rw [symbolIndex, Nat.div_add_mod', Nat.div_add_mod']

/-- Settles O12: the pixels, the wire positions and the bit steps are nested blocks of constant length, so each symbol is found block by
block. -/
theorem frameSymbolsStandAtTheirIndex : Obligations.FrameSymbolsStandAtTheirIndex := by
  intro cfg cb
  refine ⟨frameSymbols_length cfg cb, frameSymbols_getElem?_last cfg cb, ?_, fun _ => symbolIndex_split cfg⟩
  intro p c j col hp hc hj
  rw [frameSymbols_getElem?_of_wireByte cfg (wireBytes_getElem? cfg hp hc) hj, encBit_getLsbD]

end Sys2Proof.Machine
end

-- ==== Encoding: proofs ====
section
/-! PROOF. The family of 30_encoding.md: the rows of R96 as masks and patterns, and the command words that no row matches (R100). -/

namespace Sys2Proof.Machine

open Sys2Proof

/-- The mask of the top `m` bits keeps those bits in place and clears the `n` bits below them. -/
theorem and_highMask {m n : Nat} (w : BitVec (m + n)) :
    w &&& (BitVec.allOnes m ++ 0#n) = w.extractLsb' n m ++ 0#n := by
  ext i hi
  by_cases hlow : i < n
  · simp [BitVec.getElem_append, hlow]
  · have hpos : n + (i - n) = i := by omega
    simp [BitVec.getElem_append, hlow, hpos, BitVec.getLsbD_eq_getElem hi]

/-- A row of R96 as the decoder tests it gives the row as a mask and a pattern. -/
theorem and_highMask_of_extractLsb' {m n : Nat} {w : BitVec (m + n)} {fixed : BitVec m} (h : w.extractLsb' n m = fixed) :
    w &&& (BitVec.allOnes m ++ 0#n) = fixed ++ 0#n := by
  rw [and_highMask, h]

/-- A word that differs from every row of R96 in the row's fixed bits is rejected by name. -/
theorem decodeCommand_eq_reserved {w : Word} (rest : List Word) (hencbit : w.extractLsb' 1 31 ≠ 0x00800000#31)
    (hencbyte : w.extractLsb' 8 24 ≠ 0x020000#24) (hbuild : w.extractLsb' 16 16 ≠ 0x1000#16) (hattach : w ≠ 0x20000000#32)
    (htransmit : w ≠ 0x21000000#32) (hchreset : w ≠ 0x22000000#32) (hupdate : w.extractLsb' 16 16 ≠ 0x3000#16) :
    decodeCommand (w :: rest) = .error (.reservedCommand w) := by
  rw [decodeCommand, if_neg hencbit, if_neg hencbyte, if_neg hbuild, if_neg hattach, if_neg htransmit, if_neg hchreset,
    if_neg hupdate]

/-- A step whose next operation is a command that the decoder rejects is refused. -/
theorem step_eq_refused_of_decodeCommand_error {s : State} {slots : List Slot} {e : DecodeError} (hadm : admitted s.cfg = true)
    (hsched : s.sched = .command :: slots) (herr : decodeCommand s.port = .error e) : step s = .refused .notDecodable := by
  have hfetch : fetch s = .error .notDecodable := by simp [fetch, hsched, herr]
  simp [step, hadm, hfetch]

/-- Settles O34: a row the decoder would take in its fixed bits is a row the word matches by mask and pattern, so the decoder takes none. -/
theorem reservedCommandWordsAreRefused : Obligations.ReservedCommandWordsAreRefused := by
  intro w rest hrows
  simp only [not_or] at hrows
  obtain ⟨hencbit, hencbyte, hbuild, hattach, htransmit, hchreset, hupdate⟩ := hrows
  have hreserved : decodeCommand (w :: rest) = .error (.reservedCommand w) :=
    decodeCommand_eq_reserved rest
      (fun h => hencbit (and_highMask_of_extractLsb' (m := 31) (n := 1) h))
      (fun h => hencbyte (and_highMask_of_extractLsb' (m := 24) (n := 8) h))
      (fun h => hbuild (and_highMask_of_extractLsb' (m := 16) (n := 16) h)) hattach htransmit hchreset
      (fun h => hupdate (and_highMask_of_extractLsb' (m := 16) (n := 16) h))
  exact ⟨hreserved, fun s slots hadm hsched hport =>
    step_eq_refused_of_decodeCommand_error hadm hsched (hport ▸ hreserved)⟩

end Sys2Proof.Machine
end

-- ==== Bit encoder: proofs ====
section
/-! PROOF. The family of 40_bit_encoder.md: what ENCBIT and ENCBYTE return (R130, R131), the tolerance band (R133), injectivity (R134). -/

namespace Sys2Proof.Machine

open Sys2Proof

/-! ## What the operations return (R130 to R132) -/

@[simp] theorem encBit_false (cfg : Config) : encBit cfg false = symZero cfg := rfl

@[simp] theorem encBit_true (cfg : Config) : encBit cfg true = symOne cfg := rfl

theorem exec_encbit (b : Bool) (s : State) :
    exec (.encbit b) s = .next { s with reply := some (.symbol (encBit s.cfg b)) } := rfl

theorem exec_encbyte (v : Byte) (s : State) :
    exec (.encbyte v) s = .next { s with reply := some (.symbols (encByte s.cfg v)) } := rfl

theorem encByte_eq_map (cfg : Config) (v : Byte) :
    encByte cfg v = (List.range 8).map fun j => encBit cfg (v.getLsbD (7 - j)) := rfl

/-- Settles O1: each bit selects its symbol constant, whose durations are TICKS of the nominal ones (R214). -/
theorem encbitReturnsTheSymbolOfTheBit : Obligations.EncbitReturnsTheSymbolOfTheBit := by
  intro b s
  rw [exec_encbit]
  cases b with
  | false => rw [encBit_false, if_pos rfl, symZero, t0h, t0l, ticksOf, ticksOf]
  | true => rw [encBit_true, if_neg (by decide), symOne, t1h, t1l, ticksOf, ticksOf]

/-- Settles O2: the list is ENCBIT over the bit steps, each bit of the byte read off by arithmetic. -/
theorem encbyteReturnsBitsMostSignificantFirst : Obligations.EncbyteReturnsBitsMostSignificantFirst := by
  intro v s
  simp only [exec_encbyte, encByte_eq_map, encBit_getLsbD]

/-! ## The tolerance band (R133) -/

/-- within(t, d) (R213) as its two inequalities, one for each side of the band. -/
theorem withinTol_iff {cfg : Config} {t d : Nat} :
    withinTol cfg t d = true ↔
      t * 1000000000 ≤ d * cfg.fTickHz + cfg.tolNs * cfg.fTickHz ∧
        d * cfg.fTickHz ≤ t * 1000000000 + cfg.tolNs * cfg.fTickHz := by
  rw [withinTol, decide_eq_true_iff, absDiff]
  split <;> omega

/-- Settles O3: V5 places both durations of either symbol constant in the band. -/
theorem encoderStaysWithinTolerance : Obligations.EncoderStaysWithinTolerance := by
  intro b s hadm
  obtain ⟨hzeroHi, hzeroLo, honeHi, honeLo⟩ := (admittedFacts hadm).tol
  refine ⟨encBit s.cfg b, exec_encbit b s, ?_⟩
  cases b with
  | false => exact and_assoc.mp ⟨withinTol_iff.mp hzeroHi, withinTol_iff.mp hzeroLo⟩
  | true => exact and_assoc.mp ⟨withinTol_iff.mp honeHi, withinTol_iff.mp honeLo⟩

/-! ## Injectivity (R134) -/

theorem symZero_ne_symOne {cfg : Config} (h : t0h cfg < t1h cfg) : symZero cfg ≠ symOne cfg :=
  fun heq => h.ne (congrArg TimingSymbol.hi heq)

theorem encBit_injective {cfg : Config} (h : symZero cfg ≠ symOne cfg) : Function.Injective (encBit cfg) :=
  Bool.injective_iff.mpr h

/-- Bit `i` of the byte can be read back from element `7 − i` of its symbols, so equal symbols mean equal bytes. -/
theorem encByte_injective {cfg : Config} (h : symZero cfg ≠ symOne cfg) : Function.Injective (encByte cfg) := by
  intro v w heq
  have hbit (j : Nat) (hj : j < 8) : v.getLsbD (7 - j) = w.getLsbD (7 - j) := by
    apply encBit_injective h
    apply Option.some.inj
    rw [← encByte_getElem? cfg v hj, ← encByte_getElem? cfg w hj, heq]
  apply BitVec.eq_of_getLsbD_eq
  intro i hi
  have hpos : 7 - (7 - i) = i := by omega
  rw [← hpos]
  exact hbit (7 - i) (by omega)

/-- Settles O4: V6 separates the two symbol constants, and the injectivity of both maps follows from that alone. -/
theorem encoderIsInjective : Obligations.EncoderIsInjective := by
  intro cfg hadm
  have hlt := (admittedFacts hadm).distinct
  have hne := symZero_ne_symOne hlt
  exact ⟨hlt, hne, fun _ _ heq => encBit_injective hne heq, fun _ _ heq => encByte_injective hne heq⟩

end Sys2Proof.Machine
end

-- ==== Frame builder: proofs ====
section
/-! PROOF. The family of 41_frame_builder.md: what BUILD writes (R151), the one RESET-symbol of a built frame (R152), and two different
buffers giving two different sequences (R153). -/

namespace Sys2Proof.Machine

open Sys2Proof
open Sys2Proof.Safety

/-! ## What BUILD writes (R151) -/

theorem exec_build_ok {c : List Color} {s : State} (hlegal : colorsLegal s.cfg c = true) (hbuilds : BuildsFrame s.cfg c) :
    exec (.build c) s =
      .next { s with seq := frameSymbols s.cfg c, seqValid := true, reply := some (.result .ok) } := by
  simp [exec, execBuild, hlegal, buildSeq_ok hbuilds, State.give]

theorem exec_build_failed {c : List Color} {s : State} (hlegal : colorsLegal s.cfg c = true)
    (hfails : ¬ BuildsFrame s.cfg c) : exec (.build c) s = .next (s.clearSeq.raise .configurationError) := by
  simp [exec, execBuild, hlegal, buildSeq_failed hfails]

/-- Settles O10: the two premises are the builder's tests failing and passing. -/
theorem buildWritesTheFrameOrRaises : Obligations.BuildWritesTheFrameOrRaises := by
  intro c s hlegal
  constructor
  · intro hbad
    apply exec_build_failed hlegal
    rintro ⟨hpos, hmax, hlen⟩
    omega
  · intro hn hmax hlen
    exact exec_build_ok hlegal ⟨Nat.pos_of_ne_zero hn, hmax, hlen⟩

/-! ## One RESET-symbol, last (R152) -/

/-- Only the RESET-symbol has no high part, so no symbol of the data part equals it (R92, V4). -/
theorem symReset_notMem_data {cfg : Config} (h : admitted cfg = true) (c : List Color) :
    symReset cfg ∉ (wireBytes cfg c).flatMap (encByte cfg) := by
  have hzero : symReset cfg ≠ symZero cfg := fun heq =>
    Nat.ne_of_lt (admittedFacts h).zeroHi.1 (congrArg TimingSymbol.hi heq)
  have hone : symReset cfg ≠ symOne cfg := fun heq =>
    Nat.ne_of_lt (admittedFacts h).oneHi.1 (congrArg TimingSymbol.hi heq)
  intro hmem
  obtain ⟨v, -, hv⟩ := List.mem_flatMap.mp hmem
  exact (mem_encByte hv).elim hzero hone

theorem frameSymbols_count_symReset {cfg : Config} (h : admitted cfg = true) (c : List Color) :
    (frameSymbols cfg c).count (symReset cfg) = 1 := by
  rw [frameSymbols, List.count_append, List.count_eq_zero.mpr (symReset_notMem_data h c), List.count_singleton_self]

theorem frameSymbols_getLast? (cfg : Config) (c : List Color) : (frameSymbols cfg c).getLast? = some (symReset cfg) :=
  List.getLast?_concat

/-- Settles O13: a BUILD that answers OK has put the frame of a buffer of length N in SEQ. -/
theorem builtFrameHasOneResetSymbolLast : Obligations.BuiltFrameHasOneResetSymbolLast := by
  intro c s t hadm hexec hok
  obtain ⟨-, ⟨⟨-, -, hlen⟩, rfl⟩ | ⟨-, rfl⟩⟩ := execBuild_next hexec
  · refine ⟨?_, frameSymbols_getLast? s.cfg c, frameSymbols_count_symReset hadm c⟩
    rw [frameSymbols_length, hlen]
  · simp at hok

/-! ## Injectivity (R153) -/

/-- Concatenations of equally many blocks of one length agree only block by block. -/
theorem eq_of_flatMap_const_eq {α β : Type} {f : α → List β} {k : Nat} (hf : ∀ a, (f a).length = k) {l m : List α}
    (hlen : l.length = m.length) (hinj : ∀ x ∈ l, ∀ y ∈ m, f x = f y → x = y) (h : l.flatMap f = m.flatMap f) : l = m := by
  induction l generalizing m with
  | nil => exact (List.length_eq_zero_iff.mp hlen.symm).symm
  | cons x l ih =>
    cases m with
    | nil => simp at hlen
    | cons y m =>
      rw [List.flatMap_cons, List.flatMap_cons] at h
      obtain ⟨hhead, htail⟩ := List.append_inj h (by rw [hf, hf])
      have hxy : x = y := hinj x List.mem_cons_self y List.mem_cons_self hhead
      have hlm : l = m := ih (Nat.succ.inj hlen)
        (fun a ha b hb => hinj a (List.mem_cons_of_mem x ha) b (List.mem_cons_of_mem y hb)) htail
      rw [hxy, hlm]

/-- V2: ORDER is a permutation of 0..CH−1. -/
theorem order_perm_range {cfg : Config} (h : admitted cfg = true) : cfg.order.Perm (List.range cfg.ch) := by
  have f := admittedFacts h
  have hsub : cfg.order ⊆ List.range cfg.ch := fun i hi => List.mem_range.mpr (f.orderLt i hi)
  exact (List.subperm_of_subset f.orderNodup hsub).perm_of_length_le (by rw [List.length_range, f.orderLen])

/-- Every tuple index is sent at some wire position (R62). -/
theorem exists_wirePosition {cfg : Config} (h : admitted cfg = true) {i : Nat} (hi : i < cfg.ch) :
    ∃ c < cfg.ch, cfg.order.getD c 0 = i := by
  have hmem : i ∈ cfg.order := (order_perm_range h).mem_iff.mpr (List.mem_range.mpr hi)
  obtain ⟨c, hc, hget⟩ := List.mem_iff_getElem.mp hmem
  exact ⟨c, (admittedFacts h).orderLen ▸ hc, by rw [List.getD_eq_getElem _ _ hc, hget]⟩

/-- A legal Color is its CH channels: at CH = 3 the fourth byte is 0 (R91). -/
theorem color_eq_of_colorCh_eq {ch : Nat} (hch : ch = 3 ∨ ch = 4) {x y : Color} (hx : x.legal ch = true)
    (hy : y.legal ch = true) (h : ∀ i < ch, colorCh x i = colorCh y i) : x = y := by
  have h0 : x.ch0 = y.ch0 := h 0 (by omega)
  have h1 : x.ch1 = y.ch1 := h 1 (by omega)
  have h2 : x.ch2 = y.ch2 := h 2 (by omega)
  have h3 : x.ch3 = y.ch3 := by
    rcases hch with rfl | rfl
    · have hzero : x.ch3 = 0#8 ∧ y.ch3 = 0#8 := by simpa [Color.legal] using And.intro hx hy
      rw [hzero.1, hzero.2]
    · exact h 3 (by decide)
  cases x
  cases y
  exact Color.mk.injEq .. ▸ ⟨h0, h1, h2, h3⟩

/-- The pixel's bytes hold every channel of the Color. -/
theorem pixelBytes_injOn_legal {cfg : Config} (h : admitted cfg = true) {x y : Color} (hx : x.legal cfg.ch = true)
    (hy : y.legal cfg.ch = true) (heq : pixelBytes cfg x = pixelBytes cfg y) : x = y := by
  apply color_eq_of_colorCh_eq (admittedFacts h).ch hx hy
  intro i hi
  obtain ⟨c, hc, rfl⟩ := exists_wirePosition h hi
  apply Option.some.inj
  rw [← pixelBytes_getElem? cfg x hc, ← pixelBytes_getElem? cfg y hc, heq]

theorem wireBytes_injOn_legal {cfg : Config} (h : admitted cfg = true) {a b : List Color}
    (ha : colorsLegal cfg a = true) (hb : colorsLegal cfg b = true) (hlen : a.length = b.length)
    (heq : wireBytes cfg a = wireBytes cfg b) : a = b := by
  rw [colorsLegal, List.all_eq_true] at ha hb
  exact eq_of_flatMap_const_eq (pixelBytes_length cfg) hlen
    (fun x hx y hy => pixelBytes_injOn_legal h (ha x hx) (hb y hy)) heq

/-- The wire bytes can be read back from a frame of known length, ENCBYTE being injective (R134). -/
theorem wireBytes_eq_of_frameSymbols_eq {cfg : Config} (h : admitted cfg = true) {a b : List Color}
    (hlen : a.length = b.length) (heq : frameSymbols cfg a = frameSymbols cfg b) : wireBytes cfg a = wireBytes cfg b := by
  have hdata : (wireBytes cfg a).flatMap (encByte cfg) = (wireBytes cfg b).flatMap (encByte cfg) :=
    List.append_cancel_right heq
  have hencByte : Function.Injective (encByte cfg) :=
    encByte_injective (symZero_ne_symOne (admittedFacts h).distinct)
  refine eq_of_flatMap_const_eq (encByte_length cfg) ?_ (fun _ _ _ _ hvw => hencByte hvw) hdata
  rw [wireBytes_length, wireBytes_length, hlen]

/-- Settles O14: equal frames have equal wire bytes, and equal wire bytes come from equal legal buffers. -/
theorem frameSymbolsAreInjective : Obligations.FrameSymbolsAreInjective := by
  refine ⟨fun cfg _ _ _ _ hp hc => wireBytes_getElem? cfg hp hc, fun cfg cb => ⟨wireBytes_length cfg cb, rfl⟩, ?_⟩
  intro cfg a b hadm ha hb hlen heq
  exact wireBytes_injOn_legal hadm ha hb hlen (wireBytes_eq_of_frameSymbols_eq hadm hlen heq)

end Sys2Proof.Machine
end

-- ==== Transmission driver: proofs ====
section
/-! PROOF. The family of 42_transmission_driver.md: the hand-off (R170), TRANSMIT and its timeout (R171, R172), mutual exclusion (R174), the
capacity (R175), the clock and the channel (R176 to R178), the two end events (R179, R180) and the channel reset (R182). -/

namespace Sys2Proof.Machine

open Sys2Proof
open Sys2Proof.Safety

/-! ## The hand-off (R170) -/

/-- Settles O15: the two cases of ATTACHED are the two branches of the operation. -/
theorem attachHandsTheChannelOverOnce : Obligations.AttachHandsTheChannelOverOnce := by
  intro s
  constructor
  · intro hfree
    simp [exec, execAttach, hfree, State.give]
  · intro htaken
    simp [exec, execAttach, htaken]

/-! ## TRANSMIT (R171) -/

theorem transmitSeq_notAttached {s : State} (ha : s.attached = false) : transmitSeq s = .error .notAttached := by
  simp [transmitSeq, ha]

theorem transmitSeq_noSequence {s : State} (ha : s.attached = true) (hd : s.drvState = .idle) (hv : s.seqValid = false) :
    transmitSeq s = .error .noSequence := by
  simp [transmitSeq, ha, hd, hv]

theorem exec_transmit_refused {s : State} {r : Refusal} (h : transmitSeq s = .error r) : exec .transmit s = .refused r := by
  simp [exec, execTransmit, h]

theorem exec_transmit_busy {s : State} (ha : s.attached = true) (hd : s.drvState = .transmitting) :
    exec .transmit s = .next { s with reply := some (.result (.failed .resourceBusy)) } := by
  simp [exec, execTransmit, transmitSeq_busy ha hd, State.raise, State.give]

theorem exec_transmit_overflow {s : State} (ha : s.attached = true) (hd : s.drvState = .idle) (hv : s.seqValid = true)
    (hl : s.cfg.hwDepth < s.seq.length) : exec .transmit s = .next (s.clearSeq.raise .bufferOverflow) := by
  simp [exec, execTransmit, transmitSeq_overflow ha hd hv hl]

theorem exec_transmit_started {s : State} (ha : s.attached = true) (hd : s.drvState = .idle) (hv : s.seqValid = true)
    (hl : s.seq.length ≤ s.cfg.hwDepth) (hx : ∀ ts ∈ s.seq, InDomain ts) :
    exec .transmit s = .next ((started s s.seq).give .started) := by
  simp [exec, execTransmit, transmitSeq_started ha hd hv hl hx]

/-- Settles O16: each clause is one outcome of TRANSMIT, in the order of its tests; `started` spells out the writes of the start. -/
theorem transmitStartsOrRaises : Obligations.TransmitStartsOrRaises := fun _ =>
  ⟨fun ha => exec_transmit_refused (transmitSeq_notAttached ha),
    exec_transmit_busy,
    fun ha hd hv => exec_transmit_refused (transmitSeq_noSequence ha hd hv),
    exec_transmit_overflow,
    exec_transmit_started⟩

/-! ## The duration of a frame (R172) -/

/-- The bits of a byte in the order they are sent (R61). -/
def byteBits (v : Byte) : List Bool :=
  (List.range 8).map fun j => v.getLsbD (7 - j)

/-- The bits of a frame in the order they are sent (R153). -/
def frameBits (cfg : Config) (c : List Color) : List Bool :=
  (wireBytes cfg c).flatMap byteBits

/-- A frame is ENCBIT over its bits, then the RESET-symbol (R131, R150). -/
theorem frameSymbols_eq_map_frameBits (cfg : Config) (c : List Color) :
    frameSymbols cfg c = (frameBits cfg c).map (encBit cfg) ++ [symReset cfg] := by
  rw [frameSymbols, frameBits, List.map_flatMap]
  rfl

theorem frameBits_length (cfg : Config) (c : List Color) : (frameBits cfg c).length = c.length * cfg.ch * 8 := by
  rw [frameBits, flatMap_length_const byteBits 8 fun _ => rfl, wireBytes_length]

/-- The order of the bits does not change their number. -/
theorem byteBits_count_true (v : Byte) : (byteBits v).count true = onesOf v := by
  have hreverse : byteBits v = ((List.range 8).map v.getLsbD).reverse := rfl
  rw [hreverse, List.count_reverse, List.count, List.countP_map, List.countP_eq_length_filter, onesOf]
  simp [Function.comp_def]

theorem frameBits_count_true (cfg : Config) (c : List Color) : (frameBits cfg c).count true = frameOnes cfg c := by
  simp [frameBits, frameOnes, List.count_flatMap, Function.comp_def, byteBits_count_true]

theorem seqDur_append (l m : List TimingSymbol) : seqDur (l ++ m) = seqDur l + seqDur m := by
  simp [seqDur]

/-- Each bit takes the time of its symbol. -/
theorem seqDur_map_encBit (cfg : Config) (l : List Bool) :
    seqDur (l.map (encBit cfg)) =
      l.count false * symbolDur (symZero cfg) + l.count true * symbolDur (symOne cfg) := by
  induction l with
  | nil => simp [seqDur]
  | cons b l ih =>
    have hcons : seqDur ((b :: l).map (encBit cfg)) = symbolDur (encBit cfg b) + seqDur (l.map (encBit cfg)) := rfl
    rw [hcons, ih]
    cases b <;> (simp [Nat.succ_mul]; omega)

/-- The sum of hi + lo over a frame, its bits counted by value (R172). -/
theorem seqDur_frameSymbols (cfg : Config) (c : List Color) :
    seqDur (frameSymbols cfg c) =
      (frameBits cfg c).count false * (t0h cfg + t0l cfg) + frameOnes cfg c * (t1h cfg + t1l cfg) + treset cfg := by
  have hreset : seqDur [symReset cfg] = treset cfg := by simp [seqDur, symbolDur, symReset]
  rw [frameSymbols_eq_map_frameBits, seqDur_append, seqDur_map_encBit, hreset, frameBits_count_true]
  rfl

/-- A TRANSMIT of an idle driver that leaves it TRANSMITTING started the transmission of SEQ. -/
theorem started_of_execTransmit {s t : State} (h : execTransmit s = .next t) (hidle : s.drvState = .idle)
    (ht : t.drvState = .transmitting) : t = (started s s.seq).give .started := by
  obtain ⟨-, ⟨hbusy, -⟩ | ⟨-, -, -, rfl⟩ | ⟨-, -, -, -, hstart⟩⟩ := execTransmit_next h
  · simp [hidle] at hbusy
  · simp [hidle] at ht
  · exact hstart

/-- Settles O17: the start sums the durations of SEQ, and SEQ is the frame's bits and the RESET-symbol. -/
theorem timeoutIsTheFrameDurationPlusMargin : Obligations.TimeoutIsTheFrameDurationPlusMargin := by
  intro c s t hlen hseq hidle hexec ht
  obtain rfl := started_of_execTransmit hexec hidle ht
  refine ⟨(frameBits s.cfg c).count false, ?_, ?_, rfl⟩
  · rw [← frameBits_count_true, List.count_false_add_count_true, frameBits_length, hlen]
  · rw [← seqDur_frameSymbols, ← hseq]
    rfl

/-! ## The capacity (R175) -/

/-- N_FIT is the greatest supported strip size whose frame fits SB. -/
theorem le_nFit_iff {cfg : Config} (h : admitted cfg = true) :
    cfg.n ≤ nFit cfg ↔ cfg.n ≤ cfg.nMax ∧ frameLen cfg ≤ cfg.hwDepth := by
  have f := admittedFacts h
  have hdepth := f.depth
  have hch : 0 < cfg.ch * 8 := by have := f.ch; omega
  rw [nFit, le_min_iff, Nat.le_div_iff_mul_le hch, ← Nat.mul_assoc]
  simp only [frameLen, Config.bits, Config.symPerBit, Config.pad]
  omega

/-- start_frame leaves the driver TRANSMITTING, from an idle one, only by starting the frame. -/
theorem fits_of_startFrame {s t : State} {c : List Color} (h : startFrame s c = .ok t) (hidle : s.drvState = .idle)
    (ht : t.drvState = .transmitting) : BuildsFrame s.cfg c ∧ frameLen s.cfg ≤ s.cfg.hwDepth := by
  obtain ⟨-, rfl⟩ | ⟨-, -, hbusy, -⟩ | ⟨-, -, -, -, rfl⟩ | ⟨hbuilds, -, -, hfits, -, -⟩ := startFrame_ok h
  · simp [hidle] at ht
  · simp [hidle] at hbusy
  · simp [hidle] at ht
  · exact ⟨hbuilds, hfits⟩

theorem exec_update_idle {c : List Color} {s : State} (hlegal : colorsLegal s.cfg c = true) (ha : s.attached = true)
    (htask : s.taskState = .idle) : exec (.update c) s = stepOf (startFrame s.giveNothing c) := by
  simp [exec, execUpdate, hlegal, ha, htask]

/-- Settles O27: start_frame starts a frame of the configured length exactly when the builder supports N and the sequence fits SB. -/
theorem frameIsSentExactlyUpToNFit : Obligations.FrameIsSentExactlyUpToNFit := by
  intro c s hadm ha htask hidle hlegal hlen
  change _ ↔ 1 ≤ s.cfg.n ∧ s.cfg.n ≤ nFit s.cfg
  rw [le_nFit_iff hadm, exec_update_idle hlegal ha htask]
  constructor
  · rintro ⟨t, hstep, ht⟩
    obtain ⟨⟨hpos, hmax, -⟩, hfits⟩ := fits_of_startFrame (stepOf_next.mp hstep) hidle ht
    exact ⟨hpos, hmax, hfits⟩
  · rintro ⟨hpos, hmax, hfits⟩
    exact ⟨_, stepOf_next.mpr (startFrame_started (s := s.giveNothing) ⟨hpos, hmax, hlen⟩ ha hidle hfits hadm), rfl⟩

/-! ## The clock (R176) -/

/-- Settles O19: 2^32 − 1 is the bound of the saturating increment. -/
theorem tickAdvancesTimeAndSaturates : Obligations.TickAdvancesTimeAndSaturates :=
  fun _ => rfl

/-! ## The channel (R177, R178) -/

theorem wordWf_iff {w : Word} : wordWf w = true ↔ 1 ≤ wordDur0 w ∧ 1 ≤ wordDur1 w ∧ wordLvl1 w = false := by
  simp [wordWf, and_assoc]

theorem pEmitEnabled_iff {s : State} :
    pEmitEnabled s = true ↔ s.pRun = true ∧ s.pIdx < s.sbLen ∧ programmedTime s.sb (s.pIdx + 1) ≤ s.timer := by
  simp [pEmitEnabled, and_assoc]

theorem exec_pEmit_enabled {s : State} {w : Word} (h : pEmitEnabled s = true) (hw : s.sb[s.pIdx]? = some w)
    (hwf : wordWf w = true) : exec .pEmit s = .next { s with
      wave := s.wave ++ wordRuns w, line := wordLvl1 w, pIdx := s.pIdx + 1, reply := none } := by
  simp [exec, execPEmit, h, hw, hwf, State.giveNothing]

theorem exec_pEmit_notEnabled {s : State} (h : ¬ pEmitEnabled s = true) :
    exec .pEmit s = .refused .pEmitNotEnabled := by
  simp [exec, execPEmit, h]

/-- Below SB_LEN every word of SB holds a value and is well-formed. -/
theorem exists_wf_word {s : State} (hinv : Inv s) {i : Nat} (hi : i < s.sbLen) :
    ∃ w, s.sb[i]? = some w ∧ wordWf w = true := by
  have hlt : i < s.sb.length := by rwa [hinv.sbLen_eq]
  exact ⟨s.sb[i], List.getElem?_eq_getElem hlt, hinv.sbWf _ (List.getElem_mem hlt)⟩

/-- Settles O20: the sum in the statement is S(P_IDX + 1), and the invariant supplies the word that the step reads. -/
theorem pEmitSendsTheNextSymbol : Obligations.PEmitSendsTheNextSymbol := by
  refine ⟨?_, ?_, ?_⟩
  · intro s w hrun hidx htime hw hdur0 hdur1 hlvl1
    exact exec_pEmit_enabled (pEmitEnabled_iff.mpr ⟨hrun, hidx, htime⟩) hw (wordWf_iff.mpr ⟨hdur0, hdur1, hlvl1⟩)
  · intro s hnot
    exact exec_pEmit_notEnabled (mt pEmitEnabled_iff.mp hnot)
  · intro s hinv hrun hidx htime
    obtain ⟨w, hw, hwf⟩ := exists_wf_word hinv hidx
    exact ⟨_, exec_pEmit_enabled (pEmitEnabled_iff.mpr ⟨hrun, hidx, htime⟩) hw hwf⟩

theorem hwDoneEnabled_iff {s : State} : hwDoneEnabled s = true ↔ s.pRun = true ∧ s.pIdx = s.sbLen := by
  simp [hwDoneEnabled]

/-- The channel runs only for a transmission in flight (R44 clause 2). -/
theorem inFlight_of_pRun {s : State} (hinv : Inv s) (hrun : s.pRun = true) : InFlight s := by
  cases hd : s.drvState with
  | idle => simp [(hinv.idle hd).1] at hrun
  | transmitting => exact hinv.busy hd

/-- Settles O21: TIMER is at least S(P_IDX), which is TX_DUR once P_IDX has reached SB_LEN. -/
theorem hwDoneReportsAfterTheLastSymbol : Obligations.HwDoneReportsAfterTheLastSymbol := by
  refine ⟨?_, ?_, ?_⟩
  · intro s hrun hidx
    simp [exec, execHwDone, hwDoneEnabled_iff.mpr ⟨hrun, hidx⟩, State.giveNothing]
  · intro s hnot
    simp [exec, execHwDone, mt hwDoneEnabled_iff.mp hnot]
  · intro s t hinv hexec
    obtain ⟨hrun, hidx, -⟩ := execHwDone_next hexec
    have hflight := inFlight_of_pRun hinv hrun
    rw [hflight.txDur_eq, ← hidx]
    exact hflight.notEarly

/-! ## The end events (R179, R180) -/

theorem txCompleteEnabled_iff {s : State} :
    txCompleteEnabled s = true ↔ s.drvState = .transmitting ∧ s.done = true := by
  simp [txCompleteEnabled]

theorem txTimeoutEnabled_iff {s : State} :
    txTimeoutEnabled s = true ↔ s.drvState = .transmitting ∧ s.done = false ∧ s.timeout < s.timer := by
  simp [txTimeoutEnabled, and_assoc]

theorem exec_txComplete_enabled {s : State} (h : s.drvState = .transmitting ∧ s.done = true) :
    exec .txComplete s = .next { s with
      drvResult := .ok, sb := [], sbLen := 0, pIdx := 0, done := false, drvState := .idle, reply := none } := by
  simp [exec, execTxComplete, txCompleteEnabled_iff.mpr h, State.giveNothing]

theorem exec_txComplete_notEnabled {s : State} (h : ¬ (s.drvState = .transmitting ∧ s.done = true)) :
    exec .txComplete s = .refused .txCompleteNotEnabled := by
  simp [exec, execTxComplete, mt txCompleteEnabled_iff.mp h]

theorem exec_txTimeout_enabled {s : State} (h : s.drvState = .transmitting ∧ s.done = false ∧ s.timeout < s.timer) :
    exec .txTimeout s =
      .next { s.giveNothing.channelReset with drvResult := .hardwareTimeout, drvState := .idle } := by
  simp [exec, execTxTimeout, txTimeoutEnabled_iff.mpr h]

theorem exec_txTimeout_notEnabled {s : State}
    (h : ¬ (s.drvState = .transmitting ∧ s.done = false ∧ s.timeout < s.timer)) :
    exec .txTimeout s = .refused .txTimeoutNotEnabled := by
  simp [exec, execTxTimeout, mt txTimeoutEnabled_iff.mp h]

/-- Settles O22: TIMER is no part of the enabling condition, and SB holds no word afterwards. -/
theorem txCompletePostsOk : Obligations.TxCompletePostsOk := fun _ =>
  ⟨fun hd hdone => ⟨[], exec_txComplete_enabled ⟨hd, hdone⟩⟩, exec_txComplete_notEnabled⟩

/-- Settles O23: past the timeout DONE decides which of the two end events is enabled. -/
theorem txTimeoutPostsAndResets : Obligations.TxTimeoutPostsAndResets := by
  intro s
  refine ⟨fun hd hdone hlate => ⟨[], exec_txTimeout_enabled ⟨hd, hdone, hlate⟩⟩, exec_txTimeout_notEnabled, ?_⟩
  intro hd hlate
  cases hdone : s.done with
  | true =>
    exact .inl ⟨⟨_, exec_txComplete_enabled ⟨hd, hdone⟩⟩, exec_txTimeout_notEnabled (by simp [hdone])⟩
  | false =>
    exact .inr ⟨⟨_, exec_txTimeout_enabled ⟨hd, hdone, hlate⟩⟩, exec_txComplete_notEnabled (by simp [hdone])⟩

/-! ## The channel reset (R181, R182) -/

theorem exec_chreset_idle {s : State} (ha : s.attached = true) (hd : s.drvState = .idle) :
    exec .chreset s = .next (s.channelReset.give (.result .ok)) := by
  simp [exec, execChreset, ha, hd]

/-- Under the invariant an idle channel already has every value that the reset writes. -/
theorem channelReset_eq_self {s : State} (hinv : Inv s) (hd : s.drvState = .idle) : s.channelReset = s := by
  obtain ⟨hrun, hlen, hidx, hdone⟩ := hinv.idle hd
  have hsb : s.sb = [] := List.length_eq_zero_iff.mp (by rw [hinv.sbLen_eq, hlen])
  have hlow := hinv.low
  cases s
  simp_all [State.channelReset]

/-- Settles O18: two refusals and the reset are the branches of the operation, and under the invariant the reset writes what is there. -/
theorem chresetResetsAnIdleChannel : Obligations.ChresetResetsAnIdleChannel := by
  intro s
  refine ⟨?_, ?_, fun ha hd => ⟨[], exec_chreset_idle ha hd⟩, ?_⟩
  · intro ha
    simp [exec, execChreset, ha]
  · intro ha hd
    simp [exec, execChreset, ha, hd]
  · intro hinv ha hd
    rw [exec_chreset_idle ha hd, channelReset_eq_self hinv hd, State.give]

/-! ## Mutual exclusion (R174) -/

/-- An operation after which a stopped channel runs is one of the three that start a frame, and it found the driver idle. -/
theorem idle_of_channel_started {i : Instr} {s t : State} (h : exec i s = .next t) (hstopped : s.pRun = false)
    (hrun : t.pRun = true) : s.drvState = .idle ∧ i.mnemonic ∈ ["TRANSMIT", "UPDATE", "TASK_FINISH"] := by
  obtain ⟨-, -, -, -, -, -, -, -, -, -, -, -, hstarts, -⟩ := flagsAreSetAndClearedAsListed i s t h
  have hmem := hstarts hstopped hrun
  refine ⟨?_, hmem⟩
  cases i with
  | transmit =>
    obtain ⟨-, ⟨-, rfl⟩ | ⟨hidle, -⟩ | ⟨hidle, -⟩⟩ := execTransmit_next h
    · simp [hstopped] at hrun
    · exact hidle
    · exact hidle
  | update c =>
    obtain ⟨-, -, ⟨-, hf⟩ | ⟨-, rfl⟩⟩ := execUpdate_next h
    · obtain ⟨-, -, -, ⟨-, -, -, hkept⟩ | ⟨hidle, -⟩⟩ := startFrame_flags hf
      · simp [hkept, hstopped] at hrun
      · exact hidle
    · simp [hstopped] at hrun
  | taskFinish =>
    obtain ⟨-, hidle, -⟩ := execTaskFinish_next h
    exact hidle
  | _ => simp [Instr.mnemonic] at hmem

/-- Settles O42: a start finds the driver idle, and the invariant gives the busy driver its channel. -/
theorem noTwoTransmissionsOverlap : Obligations.NoTwoTransmissionsOverlap := by
  refine ⟨?_, fun s hinv hd => exec_transmit_busy (hinv.busy hd).attached hd⟩
  intro i s t _ hexec hrun
  cases hstopped : s.pRun with
  | true => exact .inl rfl
  | false =>
    obtain ⟨hidle, hmem⟩ := idle_of_channel_started hexec hstopped hrun
    exact .inr ⟨hidle, rfl, hmem⟩

end Sys2Proof.Machine
end

-- ==== Symbol translator: proofs ====
section
/-! PROOF. The family of 43_symbol_translator.md: the counts TICKS and TICKS_UP return (R211, R212), the configuration check (R215), the word
XLATE returns (R216) and what that word keeps of its symbol (R217). -/

namespace Sys2Proof.Machine

open Sys2Proof
open Sys2Proof.Safety

/-! ## Nanoseconds to ticks (R211, R212) -/

theorem exec_ticks (d : Nat) (s : State) :
    exec (.ticks d) s = .next { s with reply := some (.count (ticksOf s.cfg.fTickHz d)) } := rfl

theorem exec_ticksUp (d : Nat) (s : State) :
    exec (.ticksUp d) s = .next { s with reply := some (.count (ticksUpOf s.cfg.fTickHz d)) } := rfl

/-- The nearest count: n ≤ d × F / 10^9 + 1/2 < n + 1, without division. -/
theorem ticksOf_nearest (f d : Nat) :
    2 * (ticksOf f d * 1000000000) ≤ 2 * (d * f) + 1000000000 ∧
      2 * (d * f) + 1000000000 < 2 * ((ticksOf f d + 1) * 1000000000) := by
  rw [ticksOf]
  omega

/-- A count lasts at least d nanoseconds exactly when it is no less than TICKS_UP. -/
theorem ticksUpOf_le_iff {f d m : Nat} : ticksUpOf f d ≤ m ↔ d * f ≤ m * 1000000000 := by
  rw [ticksUpOf]
  omega

/-- Settles O5: adding half of 10^9 before the division rounds to the nearest count, a tie going up. -/
theorem ticksReturnsTheNearestCount : Obligations.TicksReturnsTheNearestCount := fun d s =>
  ⟨ticksOf s.cfg.fTickHz d, exec_ticks d s, ticksOf_nearest s.cfg.fTickHz d⟩

/-- Settles O6: TICKS_UP is the lower bound of the sufficient counts, and is one itself. -/
theorem ticksUpReturnsTheLeastSufficientCount : Obligations.TicksUpReturnsTheLeastSufficientCount := fun d s =>
  ⟨ticksUpOf s.cfg.fTickHz d, exec_ticksUp d s, ticksUpOf_le_iff.mp le_rfl, fun _ => ticksUpOf_le_iff.mpr⟩

/-! ## The configuration check (R215) -/

theorem checkV1_iff {cfg : Config} : checkV1 cfg = true ↔ cfg.ch = 3 ∨ cfg.ch = 4 := by
  simp [checkV1]

theorem checkV2_iff {cfg : Config} :
    checkV2 cfg = true ↔ cfg.order.length = cfg.ch ∧ (∀ i ∈ cfg.order, i < cfg.ch) ∧ cfg.order.Nodup := by
  simp [checkV2, and_assoc]

theorem fitsHalf_iff {t : Nat} : fitsHalf t = true ↔ 1 ≤ t ∧ t ≤ 32767 := by
  simp [fitsHalf]

theorem checkV7_iff {cfg : Config} : checkV7 cfg = true ↔ 2 ≤ treset cfg ∧ treset cfg ≤ 65534 := by
  simp [checkV7, Config.durMax]

theorem checkV8_iff {cfg : Config} : checkV8 cfg = true ↔ 1 ≤ cfg.hwDepth ∧ cfg.nMax ≤ 65535 := by
  simp [checkV8]

/-- A check made of four checks, as V4 and V5 are for the four bit durations. -/
theorem and_four_iff {a b c d : Bool} {p q r s : Prop} (ha : a = true ↔ p) (hb : b = true ↔ q) (hc : c = true ↔ r)
    (hd : d = true ↔ s) : (a && b && c && d) = true ↔ p ∧ q ∧ r ∧ s := by
  simp only [Bool.and_eq_true, and_assoc, ha, hb, hc, hd]

theorem admitted_iff_checks {cfg : Config} :
    admitted cfg = true ↔
      checkV1 cfg = true ∧ checkV2 cfg = true ∧ checkV3 cfg = true ∧ checkV4 cfg = true ∧ checkV5 cfg = true ∧
        checkV6 cfg = true ∧ checkV7 cfg = true ∧ checkV8 cfg = true ∧ checkV9 cfg = true := by
  simp only [admitted, Bool.and_eq_true, and_assoc]

theorem step_not_admitted {s : State} (h : admitted s.cfg = false) : step s = .refused .configNotAdmitted := by
  simp [step, h]

/-- Settles O9: the check is the conjunction of V1 to V9, each of which says what R215 says, and a step asks for it first. -/
theorem admittedMeansV1ToV9 : Obligations.AdmittedMeansV1ToV9 := by
  refine ⟨fun cfg => ?_, fun s => step_not_admitted⟩
  exact admitted_iff_checks.trans <|
    and_congr checkV1_iff <| and_congr checkV2_iff <| and_congr decide_eq_true_iff <|
    and_congr (and_four_iff fitsHalf_iff fitsHalf_iff fitsHalf_iff fitsHalf_iff) <|
    and_congr (and_four_iff withinTol_iff withinTol_iff withinTol_iff withinTol_iff) <|
    and_congr decide_eq_true_iff <| and_congr checkV7_iff <| and_congr checkV8_iff decide_eq_true_iff

/-! ## The word XLATE returns (R216) -/

theorem exec_xlate_inDomain {ts : TimingSymbol} (h : InDomain ts) (s : State) :
    exec (.xlate ts) s = .next { s with reply := some (.word (wordOf ts)) } := by
  simp [exec, execXlate, xlate_inDomain h, State.give]

theorem exec_xlate_outside {ts : TimingSymbol} (h : ¬ InDomain ts) (s : State) :
    exec (.xlate ts) s = .refused .symbolOutsideDomain := by
  have hnone : xlate ts = none := Option.not_isSome_iff_eq_none.mp (mt xlate_isSome_iff.mp h)
  simp [exec, execXlate, hnone]

theorem wordOf_data_toNat {hi lo : Nat} (hhi : 1 ≤ hi) (hhi' : hi ≤ 32767) (hlo : lo ≤ 32767) :
    (wordOf ⟨hi, lo⟩).toNat = hi + 2 ^ 15 + lo * 2 ^ 16 := by
  have hpos : hi ≠ 0 := by omega
  simp only [wordOf, if_neg hpos, BitVec.toNat_ofNat]
  omega

theorem wordOf_reset_toNat {lo : Nat} (hlo : lo ≤ 65534) :
    (wordOf ⟨0, lo⟩).toNat = (lo - lo / 2) + lo / 2 * 2 ^ 16 := by
  simp only [wordOf, if_true, BitVec.toNat_ofNat]
  omega

/-- Settles O7: inside the domain the word is that of the field table, outside it there is none. -/
theorem xlateReturnsThePeripheralWord : Obligations.XlateReturnsThePeripheralWord := by
  refine ⟨?_, ?_, fun ts s houtside => exec_xlate_outside houtside s⟩
  · intro hi lo s hhi hhi' hlo hlo'
    exact ⟨_, exec_xlate_inDomain (.inl ⟨hhi, hhi', hlo, hlo'⟩) s, wordOf_data_toNat hhi hhi' hlo'⟩
  · intro lo s hlo hlo'
    exact ⟨_, exec_xlate_inDomain (.inr ⟨rfl, hlo, hlo'⟩) s, wordOf_reset_toNat hlo'⟩

/-! ## What the word keeps of its symbol (R217) -/

/-- (b): the two halves last as long as the symbol. -/
theorem wordDur_wordOf {ts : TimingSymbol} (h : InDomain ts) : wordDur (wordOf ts) = symbolDur ts := by
  rw [wordDur, symbolDur]
  rcases h with ⟨hhi, hhi', hlo, hlo'⟩ | ⟨hhi, -, hlo'⟩
  · obtain ⟨hdur0, -, hdur1, -⟩ := wordOf_data hhi hhi' hlo hlo'
    rw [hdur0, hdur1]
  · obtain ⟨hdur0, -, hdur1, -⟩ := wordOf_reset hhi hlo'
    omega

/-- (d): the high half is the high part of a data symbol; with no high half the whole word is the low part. -/
theorem unxlate_wordOf {ts : TimingSymbol} (h : InDomain ts) : unxlate (wordOf ts) = ts := by
  have hdur : wordDur0 (wordOf ts) + wordDur1 (wordOf ts) = ts.hi + ts.lo := wordDur_wordOf h
  rw [unxlate]
  rcases h with ⟨hhi, hhi', hlo, hlo'⟩ | ⟨hhi, -, hlo'⟩
  · obtain ⟨hdur0, hlvl0, hdur1, -⟩ := wordOf_data hhi hhi' hlo hlo'
    rw [if_pos hlvl0, hdur0, hdur1]
  · obtain ⟨-, hlvl0, -, -⟩ := wordOf_reset hhi hlo'
    rw [hlvl0, if_neg Bool.false_ne_true, hdur, hhi, Nat.zero_add, ← hhi]

/-- The high time of a word is the high part of the symbol it gives back. -/
theorem unxlate_hi (w : Word) : (unxlate w).hi = if wordLvl0 w = true then wordDur0 w else 0 := by
  rw [unxlate, apply_ite TimingSymbol.hi]

theorem inDomain_of_xlate {ts : TimingSymbol} {w : Word} (h : xlate ts = some w) : InDomain ts :=
  xlate_isSome_iff.mp (Option.isSome_of_mem h)

/-- `unxlate` is the inverse of XLATE on its image. -/
theorem unxlate_of_xlate {ts : TimingSymbol} {w : Word} (h : xlate ts = some w) : unxlate w = ts := by
  rw [xlate_eq_wordOf h, unxlate_wordOf (inDomain_of_xlate h)]

/-- Settles O8: the word gives the symbol back, which carries the high time and the injectivity; P_EMIT takes only a word that ends low. -/
theorem xlateKeepsDurationAndHighTime : Obligations.XlateKeepsDurationAndHighTime := by
  refine ⟨?_, ?_, ?_⟩
  · intro ts w hxlate
    have hdomain := inDomain_of_xlate hxlate
    have hback := unxlate_of_xlate hxlate
    obtain rfl := xlate_eq_wordOf hxlate
    obtain ⟨hdur0, hdur1, hlvl1⟩ := wordWf_iff.mp (wordOf_wf hdomain)
    have hhigh := (unxlate_hi (wordOf ts)).symm.trans (congrArg TimingSymbol.hi hback)
    exact ⟨hdur0, hdur1, hlvl1, wordDur_wordOf hdomain, hhigh, hback⟩
  · intro a b w ha hb
    rw [← unxlate_of_xlate ha, unxlate_of_xlate hb]
  · intro s t hexec
    obtain ⟨-, -, -, w, -, hwf, rfl⟩ := execPEmit_next hexec
    obtain ⟨-, -, hlow⟩ := wordWf_iff.mp hwf
    exact hlow

end Sys2Proof.Machine
end

-- ==== LED Task: proofs ====
section
/-! PROOF. The family of 44_led_task.md: UPDATE (R231, R232), TASK_FINISH (R233), the pending slot (R234), and what protects a transmission in flight
(R236, and R296 of 70_reset_and_hazards.md). -/

namespace Sys2Proof.Machine

open Sys2Proof
open Sys2Proof.Safety

/-! ## UPDATE (R231, R232) -/

/-- The length of a frame's sequence with the constants of R8 put in. -/
theorem frameLen_eq (cfg : Config) : frameLen cfg = cfg.n * cfg.ch * 8 + 1 := by
  simp [frameLen]

theorem exec_update_notAttached {c : List Color} {s : State} (hlegal : colorsLegal s.cfg c = true) (ha : s.attached = false) :
    exec (.update c) s = .refused .notAttached := by
  simp [exec, execUpdate, hlegal, ha]

theorem exec_update_waiting {c : List Color} {s : State} (hlegal : colorsLegal s.cfg c = true) (ha : s.attached = true)
    (htask : s.taskState = .transmitting) :
    exec (.update c) s = .next { s with pend := c, pendValid := true, reply := none } := by
  simp [exec, execUpdate, hlegal, ha, htask, State.giveNothing]

/-- Settles O24: a waiting task pends, and an idle one does what start_frame does, so each later clause is one outcome of start_frame. -/
theorem updateStartsPendsOrReports : Obligations.UpdateStartsPendsOrReports := by
  intro c s hlegal
  refine ⟨exec_update_notAttached hlegal, exec_update_waiting hlegal, ?_, ?_, ?_, ?_⟩
  all_goals
    intro ha htask
    rw [exec_update_idle hlegal ha htask]
  · intro hbuild
    rw [startFrame_configurationError (s := s.giveNothing) hbuild]
    rfl
  · intro hbuild hbusy
    rw [startFrame_busy (s := s.giveNothing) hbuild ha hbusy]
    rfl
  · intro hbuild hidle hlong
    rw [← frameLen_eq] at hlong
    rw [startFrame_overflow (s := s.giveNothing) hbuild ha hidle hlong]
    rfl
  · intro hbuild hidle hfits hadm
    rw [← frameLen_eq] at hfits
    rw [startFrame_started (s := s.giveNothing) hbuild ha hidle hfits hadm]
    rfl

/-! ## The pending slot (R234) -/

/-- Settles O25: the second UPDATE overwrites the two components that the first one wrote. -/
theorem laterRequestSupersedesThePendingOne : Obligations.LaterRequestSupersedesThePendingOne := by
  intro a b s ha htask hlegalA hlegalB
  have hfirst := exec_update_waiting hlegalA ha htask
  have hsecond := exec_update_waiting (s := { s with pend := a, pendValid := true, reply := none }) hlegalB ha htask
  exact ⟨_, exec_update_waiting hlegalB ha htask, execAll_cons.mpr ⟨_, hfirst, execAll_cons.mpr ⟨_, hsecond, rfl⟩⟩, rfl, rfl, rfl⟩

/-! ## TASK_FINISH (R233) -/

theorem taskFinishEnabled_iff {s : State} :
    taskFinishEnabled s = true ↔ s.taskState = .transmitting ∧ s.drvState = .idle ∧ s.drvResult ≠ .noResult := by
  simp [taskFinishEnabled, and_assoc]

/-- A posted DRV_RESULT is one result, and that is what `reported` lists. -/
theorem exists_posted_of_ne_noResult {d : DrvResult} (h : d ≠ .noResult) :
    ∃ r, postedResult d = some r ∧ reported d = [r] := by
  cases d with
  | noResult => exact absurd rfl h
  | ok | hardwareTimeout => exact ⟨_, rfl, rfl⟩

theorem exec_taskFinish_notEnabled {s : State} (h : ¬ taskFinishEnabled s = true) :
    exec .taskFinish s = .refused .taskFinishNotEnabled := by
  simp [exec, execTaskFinish, h]

theorem exec_taskFinish_noPending {s : State} (h : taskFinishEnabled s = true) (hpend : s.pendValid = false) :
    exec .taskFinish s = .next { s with
      resp := s.resp ++ reported s.drvResult, drvResult := .noResult, taskState := .idle, reply := none } := by
  obtain ⟨r, hposted, hreported⟩ := exists_posted_of_ne_noResult (taskFinishEnabled_iff.mp h).2.2
  simp [exec, execTaskFinish, h, hposted, hpend, hreported, State.finishFrame, State.respond, State.giveNothing]

/-- The state in which TASK_FINISH starts the pending frame: the result reported, the slot emptied (R233). -/
def State.pendingTaken (s : State) : State :=
  { s with
    resp := s.resp ++ reported s.drvResult
    drvResult := .noResult
    taskState := .idle
    pend := []
    pendValid := false
    reply := none }

theorem exec_taskFinish_pending {s : State} (h : taskFinishEnabled s = true) (hpend : s.pendValid = true) :
    exec .taskFinish s = stepOf (startFrame s.pendingTaken s.pend) := by
  obtain ⟨r, hposted, hreported⟩ := exists_posted_of_ne_noResult (taskFinishEnabled_iff.mp h).2.2
  simp [exec, execTaskFinish, h, hposted, hpend, hreported, State.pendingTaken, State.finishFrame, State.respond,
    State.giveNothing]

/-- Settles O26: with a pending frame TASK_FINISH does what start_frame does after the report, and its idle driver leaves three outcomes. -/
theorem taskFinishReportsThenStartsThePendingFrame : Obligations.TaskFinishReportsThenStartsThePendingFrame := by
  intro s
  refine ⟨fun hnot => exec_taskFinish_notEnabled (mt taskFinishEnabled_iff.mp hnot), ?_, ?_, ?_, ?_⟩
  all_goals
    intro htask hidle hresult hpend
    have henabled := taskFinishEnabled_iff.mpr ⟨htask, hidle, hresult⟩
  · exact exec_taskFinish_noPending henabled hpend
  · intro hbuild
    rw [exec_taskFinish_pending henabled hpend, startFrame_configurationError (s := s.pendingTaken) hbuild]
    rfl
  · intro ha hbuild hlong
    rw [← frameLen_eq] at hlong
    rw [exec_taskFinish_pending henabled hpend, startFrame_overflow (s := s.pendingTaken) hbuild ha hidle hlong]
    rfl
  · intro ha hbuild hfits hadm
    rw [← frameLen_eq] at hfits
    rw [exec_taskFinish_pending henabled hpend, startFrame_started (s := s.pendingTaken) hbuild ha hidle hfits hadm]
    rfl

/-! ## A transmission in flight (R236, R296) -/

/-- While the driver is busy, start_frame ends in a report, with SEQ emptied. -/
theorem startFrame_of_busy {s t : State} {c : List Color} (h : startFrame s c = .ok t) (hbusy : s.drvState = .transmitting) :
    ∃ f, t = s.clearSeq.respond (.failed f) := by
  obtain ⟨-, rfl⟩ | ⟨-, -, -, rfl⟩ | ⟨-, -, hidle, -⟩ | ⟨-, -, hidle, -⟩ := startFrame_ok h
  · exact ⟨_, rfl⟩
  · exact ⟨_, rfl⟩
  all_goals simp [hbusy] at hidle

theorem le_satIncr {n : Nat} (h : n < 2 ^ 32) : n ≤ satIncr n := by
  simp only [satIncr, timerMax]
  omega

/-- From `s` to `t` a transmission in flight stays in flight: what is sent stays, and its progress and the time only go forward. -/
def FlightGoesOn (s t : State) : Prop :=
  t.drvState = .transmitting ∧ t.drvResult = s.drvResult ∧ t.sb = s.sb ∧ t.sbLen = s.sbLen ∧ t.txDur = s.txDur ∧
    t.timeout = s.timeout ∧ s.pIdx ≤ t.pIdx ∧ s.timer ≤ t.timer ∧ s.wave <+: t.wave ∧ (s.done = true → t.done = true)

/-- A start needs an idle driver, so of the operations that neither end nor cut a flight only TICK, P_EMIT and HW_DONE write to it. -/
theorem exec_flightGoesOn {i : Instr} {s t : State} (hinv : Inv s) (hbusy : s.drvState = .transmitting)
    (hleaves : leavesInFlight i = true) (h : exec i s = .next t) : FlightGoesOn s t := by
  cases i with
  | encbit _ | encbyte _ | ticks _ | ticksUp _ =>
    obtain rfl := Host.Outcome.next.inj h
    simp [FlightGoesOn, hbusy]
  | xlate ts =>
    obtain ⟨-, rfl⟩ := execXlate_next h
    simp [FlightGoesOn, hbusy]
  | build c =>
    obtain ⟨-, ⟨-, rfl⟩ | ⟨-, rfl⟩⟩ := execBuild_next h <;> simp [FlightGoesOn, hbusy]
  | attach =>
    obtain ⟨-, rfl⟩ := execAttach_next h
    simp [FlightGoesOn, hbusy]
  | transmit =>
    obtain ⟨-, ⟨-, rfl⟩ | ⟨hidle, -⟩ | ⟨hidle, -⟩⟩ := execTransmit_next h
    · simp [FlightGoesOn, hbusy]
    all_goals simp [hbusy] at hidle
  | chreset =>
    obtain ⟨-, hidle, -⟩ := execChreset_next h
    simp [hbusy] at hidle
  | update c =>
    obtain ⟨-, -, ⟨-, hf⟩ | ⟨-, rfl⟩⟩ := execUpdate_next h
    · obtain ⟨_, rfl⟩ := startFrame_of_busy hf hbusy
      simp [FlightGoesOn, hbusy]
    · simp [FlightGoesOn, hbusy]
  | tick =>
    obtain rfl := execTick_next h
    simp [FlightGoesOn, hbusy, le_satIncr hinv.timer_lt]
  | pEmit =>
    obtain ⟨-, -, -, _, -, -, rfl⟩ := execPEmit_next h
    simp [FlightGoesOn, hbusy]
  | hwDone =>
    obtain ⟨-, -, rfl⟩ := execHwDone_next h
    simp [FlightGoesOn, hbusy]
  | taskFinish =>
    obtain ⟨-, hidle, -⟩ := execTaskFinish_next h
    simp [hbusy] at hidle
  | txComplete | txTimeout | reset => simp [leavesInFlight] at hleaves

theorem exec_chreset_busy {s : State} (ha : s.attached = true) (hd : s.drvState = .transmitting) :
    exec .chreset s = .refused .transmissionInFlight := by
  obtain ⟨-, hrefused, -⟩ := chresetResetsAnIdleChannel s
  exact hrefused ha hd

/-- Settles O43: the flight goes on under every other operation, and each end event's enabling condition says when it may come; under the
invariant DONE stands only after the last symbol. -/
theorem nothingStopsATransmissionInFlight : Obligations.NothingStopsATransmissionInFlight := by
  refine ⟨fun _ _ _ hinv hbusy hleaves h => exec_flightGoesOn hinv hbusy hleaves h, ?_, ?_, ?_⟩
  · intro s hinv hbusy
    exact exec_chreset_busy (hinv.busy hbusy).attached hbusy
  · intro s t _ h
    obtain ⟨-, hdone, hlate, -⟩ := execTxTimeout_next h
    exact ⟨hdone, hlate⟩
  · intro s t hinv h
    obtain ⟨hbusy, hdone, -⟩ := execTxComplete_next h
    exact (hinv.busy hbusy).doneAtEnd hdone

end Sys2Proof.Machine
end

-- ==== Reset: proofs ====
section
/-! PROOF. The family of 70_reset_and_hazards.md: what RESET gives each component (R290). -/

namespace Sys2Proof.Machine

open Sys2Proof

/-- RESET has no enabling condition and ends in the state after reset under the configuration it finds (R290); the model's own port and
schedule stay (log 14). -/
theorem exec_reset (s : State) :
    exec .reset s = .next { State.resetWith s.cfg with port := s.port, sched := s.sched } :=
  rfl

/-- Settles O29: the state `exec_reset` gives holds the value of the table in every component, with SB empty for its unspecified contents. -/
theorem resetGivesEveryComponentItsValue : Obligations.ResetGivesEveryComponentItsValue :=
  fun s => ⟨[], s.port, s.sched, exec_reset s⟩

end Sys2Proof.Machine
end

-- ==== Whole machine: proofs ====
section
/-! PROOF. The rules of no one unit: the round trip of the encoding (30_encoding.md), the step, which operations write a component and what
every step keeps (10_state.md sections 4 and 5), and runs of many steps (30_encoding.md section 5, 42_transmission_driver.md section 5,
60_exceptions.md section 6). -/

namespace Sys2Proof.Machine

open Sys2Proof
open Sys2Proof.Safety

/-! ## Command words as numbers (R95, R96, R98) -/

/-- A row of R96 compares the top `m` bits of a word: as a number, the word without its `n` low bits. -/
theorem extractLsb'_eq_iff_div {m n : Nat} (hmn : m + n = 32) {w : Word} {fixed : BitVec m} :
    w.extractLsb' n m = fixed ↔ w.toNat / 2 ^ n = fixed.toNat := by
  have hlt : w.toNat / 2 ^ n < 2 ^ m := by
    have hw : w.toNat < 2 ^ (n + m) := by rw [Nat.add_comm, hmn]; exact w.isLt
    exact Nat.div_lt_of_lt_mul (by rwa [← Nat.pow_add])
  rw [BitVec.toNat_eq, BitVec.extractLsb'_toNat, Nat.shiftRight_eq_div_pow, Nat.mod_eq_of_lt hlt]

/-- The decoder's rows of R96, each test on the word's number. -/
theorem decodeCommand_cons (w : Word) (ws : List Word) :
    decodeCommand (w :: ws) =
      if w.toNat / 2 = 0x00800000 then .ok (.encbit (w.getLsbD 0), ws)
      else if w.toNat / 256 = 0x020000 then .ok (.encbyte (w.extractLsb' 0 8), ws)
      else if w.toNat / 65536 = 0x1000 then withColors .build (lenOf w) ws
      else if w.toNat = 0x20000000 then .ok (.attach, ws)
      else if w.toNat = 0x21000000 then .ok (.transmit, ws)
      else if w.toNat = 0x22000000 then .ok (.chreset, ws)
      else if w.toNat / 65536 = 0x3000 then withColors .update (lenOf w) ws
      else .error (.reservedCommand w) := by
  simp only [decodeCommand, extractLsb'_eq_iff_div (m := 31) (n := 1) rfl, extractLsb'_eq_iff_div (m := 24) (n := 8) rfl,
    extractLsb'_eq_iff_div (m := 16) (n := 16) rfl, BitVec.toNat_eq (n := 32)]
  rfl

theorem bitVec_toNat_append {m n : Nat} (x : BitVec m) (y : BitVec n) : (x ++ y).toNat = x.toNat * 2 ^ n + y.toNat := by
  rw [BitVec.toNat_append, ← Nat.shiftLeft_add_eq_or_of_lt y.isLt, Nat.shiftLeft_eq]

/-- The op code stands above the argument (R95), which is an operand with zeros above it. -/
theorem commandWord_toNat (op : Byte) {k n : Nat} (hkn : k + n = 24) (arg : BitVec n) :
    (commandWord op ((0#k ++ arg).cast hkn)).toNat = op.toNat * 16777216 + arg.toNat := by
  rw [commandWord, bitVec_toNat_append, BitVec.toNat_cast, bitVec_toNat_append]
  simp

theorem encbit_word_toNat (b : Bool) : (commandWord 0x01#8 (0#23 ++ BitVec.ofBool b)).toNat = 0x01000000 + b.toNat := by
  cases b <;> rfl

theorem encbyte_word_toNat (v : Byte) : (commandWord 0x02#8 (0#16 ++ v)).toNat = 0x02000000 + v.toNat :=
  commandWord_toNat 0x02#8 rfl v

theorem color_word_toNat (op : Byte) {n : Nat} (hn : n ≤ 65535) :
    (commandWord op (0#8 ++ BitVec.ofNat 16 n)).toNat = op.toNat * 16777216 + n := by
  have h := commandWord_toNat op (k := 8) rfl (BitVec.ofNat 16 n)
  rwa [BitVec.toNat_ofNat, Nat.mod_eq_of_lt (by omega)] at h

theorem lenOf_eq_mod (w : Word) : lenOf w = w.toNat % 65536 := by
  simp [lenOf, BitVec.extractLsb'_toNat]

/-! ## The round trip -/

theorem withColors_map (mk : List Color → Instr) (c : List Color) (rest : List Word) :
    withColors mk c.length (c.map wordOfColor ++ rest) = .ok (mk c, rest) := by
  rw [withColors, takeColors_map]

theorem withColors_ok {mk : List Color → Instr} {n : Nat} {ws rest : List Word} {i : Instr}
    (h : withColors mk n ws = .ok (i, rest)) : ∃ c : List Color, i = mk c ∧ c.length = n ∧ ws = c.map wordOfColor ++ rest := by
  unfold withColors at h
  split at h
  · rename_i c rest' htake
    cases h
    obtain ⟨hlen, hws⟩ := takeColors_some htake
    exact ⟨c, rfl, hlen, hws⟩
  · simp at h

/-- LEN of a command with Color words (R98). -/
theorem lenOf_color_word (op : Byte) {n : Nat} (hn : n ≤ 65535) :
    lenOf (commandWord op (0#8 ++ BitVec.ofNat 16 n)) = n := by
  rw [lenOf_eq_mod, color_word_toNat op hn]
  omega

/-- A command is read back from its words, and what follows them stays. -/
theorem decodeCommand_encode {i : Instr} {words : List Word} (rest : List Word) (hlen : i.lenFits = true)
    (henc : encode i = .command words) : decodeCommand (words ++ rest) = .ok (i, rest) := by
  cases i with
  | encbit b =>
    obtain rfl := Encoded.command.inj henc
    cases b <;> rfl
  | encbyte v =>
    obtain rfl := Encoded.command.inj henc
    have hw := encbyte_word_toNat v
    have hv := v.isLt
    have hback : (commandWord 0x02#8 (0#16 ++ v)).extractLsb' 0 8 = v := by
      apply BitVec.eq_of_toNat_eq
      rw [BitVec.extractLsb'_toNat, hw]
      omega
    rw [List.cons_append, decodeCommand_cons, if_neg (by omega), if_pos (by omega), hback, List.nil_append]
  | build c =>
    obtain rfl := Encoded.command.inj henc
    have hc : c.length ≤ 65535 := of_decide_eq_true hlen
    have hw : (commandWord 0x10#8 (0#8 ++ BitVec.ofNat 16 c.length)).toNat = 0x10000000 + c.length :=
      color_word_toNat 0x10#8 hc
    rw [colorCommand, List.cons_append, decodeCommand_cons, if_neg (by omega), if_neg (by omega), if_pos (by omega),
      lenOf_color_word _ hc, withColors_map]
  | update c =>
    obtain rfl := Encoded.command.inj henc
    have hc : c.length ≤ 65535 := of_decide_eq_true hlen
    have hw : (commandWord 0x30#8 (0#8 ++ BitVec.ofNat 16 c.length)).toNat = 0x30000000 + c.length :=
      color_word_toNat 0x30#8 hc
    rw [colorCommand, List.cons_append, decodeCommand_cons, if_neg (by omega), if_neg (by omega), if_neg (by omega),
      if_neg (by omega), if_neg (by omega), if_neg (by omega), if_pos (by omega), lenOf_color_word _ hc, withColors_map]
  | attach | transmit | chreset =>
    obtain rfl := Encoded.command.inj henc
    rfl
  | ticks _ | ticksUp _ | xlate _ | tick | pEmit | hwDone | txComplete | txTimeout | taskFinish | reset => cases henc

theorem decode_encode {i : Instr} (hlen : i.lenFits = true) : decode (encode i) = .ok i := by
  cases henc : encode i with
  | command words =>
    have hread := decodeCommand_encode [] hlen henc
    rw [List.append_nil] at hread
    simp [decode, hread]
  | label id operands =>
    cases i <;> cases henc <;> rfl

/-- Settles O32: each row's word fails the tests before its own, and LEN counts the Color words that follow. -/
theorem decodeOfEncodeIsTheOperation : Obligations.DecodeOfEncodeIsTheOperation :=
  ⟨fun _ => decode_encode, fun _ _ => decodeCommand_encode⟩

/-! ## One meaning for every encoded form -/

/-- A word in the row of a command with Color words is that command's word for its own LEN (R96, R98). -/
theorem eq_color_word {w : Word} {op : Byte} {n : Nat} (hrow : w.toNat / 65536 = op.toNat * 256) (hn : n = lenOf w) :
    w = commandWord op (0#8 ++ BitVec.ofNat 16 n) := by
  have hlt := lenOf_lt w
  rw [lenOf_eq_mod] at hn hlt
  apply BitVec.eq_of_toNat_eq
  rw [color_word_toNat op (by omega)]
  omega

theorem eq_encbit_word {w : Word} (hrow : w.toNat / 2 = 0x00800000) :
    w = commandWord 0x01#8 (0#23 ++ BitVec.ofBool (w.getLsbD 0)) := by
  have hbit : (w.getLsbD 0).toNat = w.toNat % 2 := by
    rw [BitVec.getLsbD, Nat.testBit_zero]
    rcases Nat.mod_two_eq_zero_or_one w.toNat with hparity | hparity <;> simp [hparity]
  apply BitVec.eq_of_toNat_eq
  rw [encbit_word_toNat]
  omega

theorem eq_encbyte_word {w : Word} (hrow : w.toNat / 256 = 0x020000) :
    w = commandWord 0x02#8 (0#16 ++ w.extractLsb' 0 8) := by
  apply BitVec.eq_of_toNat_eq
  rw [encbyte_word_toNat, BitVec.extractLsb'_toNat]
  omega

theorem length_fits_of_eq_lenOf {c : List Color} {w : Word} (h : c.length = lenOf w) : decide (c.length ≤ 65535) = true := by
  have := lenOf_lt w
  exact decide_eq_true (by omega)

/-- What the decoder reads as a command are the words that encode it, in front of the rest. -/
theorem decodeCommand_ok {ws rest : List Word} {i : Instr} (h : decodeCommand ws = .ok (i, rest)) :
    ∃ words, encode i = .command words ∧ ws = words ++ rest ∧ i.lenFits = true := by
  cases ws with
  | nil => cases h
  | cons w ws =>
    rw [decodeCommand_cons] at h
    split_ifs at h with hencbit hencbyte hbuild hattach htransmit hchreset hupdate
    · cases h
      exact ⟨_, rfl, congrArg (· :: _) (eq_encbit_word hencbit), rfl⟩
    · cases h
      exact ⟨_, rfl, congrArg (· :: _) (eq_encbyte_word hencbyte), rfl⟩
    · obtain ⟨c, rfl, hlen, rfl⟩ := withColors_ok h
      exact ⟨_, rfl, congrArg (· :: _) (eq_color_word hbuild hlen), length_fits_of_eq_lenOf hlen⟩
    · cases h
      exact ⟨_, rfl, congrArg (· :: _) (BitVec.eq_of_toNat_eq hattach), rfl⟩
    · cases h
      exact ⟨_, rfl, congrArg (· :: _) (BitVec.eq_of_toNat_eq htransmit), rfl⟩
    · cases h
      exact ⟨_, rfl, congrArg (· :: _) (BitVec.eq_of_toNat_eq hchreset), rfl⟩
    · obtain ⟨c, rfl, hlen, rfl⟩ := withColors_ok h
      exact ⟨_, rfl, congrArg (· :: _) (eq_color_word hupdate hlen), length_fits_of_eq_lenOf hlen⟩

/-- What the decoder reads as a label and its operands is their encoding; a function or an event carries no LEN (R97). -/
theorem decodeLabel_ok {id : Byte} {operands : List Nat} {i : Instr} (h : decodeLabel id operands = .ok i) :
    encode i = .label id operands ∧ i.lenFits = true := by
  unfold decodeLabel at h
  simp only [ite_eq_iff] at h
  -- the three functions, each with its operands
  obtain ⟨rfl, h⟩ | ⟨-, ⟨rfl, h⟩ | ⟨-, ⟨rfl, h⟩ | ⟨-, ⟨-, h⟩ | ⟨hnone, h⟩⟩⟩⟩ := h
  · rcases operands with _ | ⟨d, _ | _⟩ <;> cases h
    exact ⟨rfl, rfl⟩
  · rcases operands with _ | ⟨d, _ | _⟩ <;> cases h
    exact ⟨rfl, rfl⟩
  · rcases operands with _ | ⟨hi, _ | ⟨lo, _ | _⟩⟩ <;> cases h
    exact ⟨rfl, rfl⟩
  · cases h
  -- the seven events, with none
  obtain rfl : operands = [] := not_ne_iff.mp hnone
  obtain ⟨rfl, h⟩ | ⟨-, ⟨rfl, h⟩ | ⟨-, ⟨rfl, h⟩ | ⟨-, ⟨rfl, h⟩ | ⟨-, ⟨rfl, h⟩ | ⟨-, ⟨rfl, h⟩ | ⟨-, ⟨rfl, h⟩ | ⟨-, h⟩⟩⟩⟩⟩⟩⟩ := h <;>
    cases h <;> exact ⟨rfl, rfl⟩

theorem decode_ok {e : Encoded} {i : Instr} (h : decode e = .ok i) : encode i = e ∧ i.lenFits = true := by
  cases e with
  | command ws =>
    simp only [decode] at h
    split at h
    · next hread =>
      cases h
      obtain ⟨words, henc, rfl, hlen⟩ := decodeCommand_ok hread
      exact ⟨by rw [henc, List.append_nil], hlen⟩
    · cases h
    · cases h
  | label id operands => exact decodeLabel_ok h

/-- Settles O33: the row that takes a word fixes all of it but the operand, which the decoder keeps. -/
theorem encodeOfDecodeIsTheEncodedForm : Obligations.EncodeOfDecodeIsTheEncodedForm :=
  fun _ _ => decode_ok

/-- Settles O35: the decoder evaluates each of the words and labels. -/
theorem writtenOutWordsDecode : Obligations.WrittenOutWordsDecode := by
  unfold Obligations.WrittenOutWordsDecode
  decide

/-! ## The step -/

theorem fetch_command {s : State} {slots : List Slot} {i : Instr} {rest : List Word} (hsched : s.sched = .command :: slots)
    (hread : decodeCommand s.port = .ok (i, rest)) : fetch s = .ok (i, { s with sched := slots, port := rest }) := by
  simp [fetch, hsched, hread]

theorem fetch_label {s : State} {slots : List Slot} {id : Byte} {operands : List Nat} {i : Instr}
    (hsched : s.sched = .label id operands :: slots) (hread : decodeLabel id operands = .ok i) :
    fetch s = .ok (i, { s with sched := slots }) := by
  simp [fetch, hsched, hread]

theorem step_of_fetch {s s' : State} {i : Instr} (hadm : admitted s.cfg = true) (hfetch : fetch s = .ok (i, s')) :
    step s = exec i s' := by
  simp [step, hadm, hfetch]

/-- Settles O36: the head of the schedule is what `fetch` takes. -/
theorem stepRunsTheScheduledOperation : Obligations.StepRunsTheScheduledOperation := by
  intro s i slots hadm
  refine ⟨fun rest hsched hread => step_of_fetch hadm (fetch_command hsched hread),
    fun id operands hsched hread => step_of_fetch hadm (fetch_label hsched hread), ?_⟩
  intro hsched
  simp [step, hadm, fetch, hsched]

/-- An encoded operation placed in front is what `fetch` takes, and nothing of it is left behind. -/
theorem fetch_place {e : Encoded} {i : Instr} (s : State) (h : decode e = .ok i) : fetch (s.place e) = .ok (i, s) := by
  obtain ⟨henc, hlen⟩ := decode_ok h
  cases e with
  | command words => exact fetch_command rfl (decodeCommand_encode s.port hlen henc)
  | label id operands => exact fetch_label rfl h

theorem decodeTableWord_some {nbits w : Nat} {i : Instr} (h : decodeTableWord nbits w = some i) :
    ∃ e, tableEncoded nbits w = some e ∧ decode e = .ok i := by
  unfold decodeTableWord at h
  split at h
  · next e htable =>
    split at h
    · next j hread =>
      cases h
      exact ⟨e, htable, hread⟩
    · cases h
  · cases h

/-- Settles O37: the table's bits are an encoded form, and placing puts that form in front. -/
theorem placedOperationIsTheNextStep : Obligations.PlacedOperationIsTheNextStep := by
  intro s nbits w i hadm h
  obtain ⟨e, htable, hread⟩ := decodeTableWord_some h
  have hplace : s.withFetchWord nbits w = s.place e := by simp [State.withFetchWord, htable]
  have hcfg : (s.place e).cfg = s.cfg := by cases e <;> rfl
  rw [hplace]
  exact step_of_fetch (hcfg ▸ hadm) (fetch_place s hread)

/-! ## Refusals -/

/-- A Color with a fourth byte is not legal under three channels (R91). -/
theorem not_colorsLegal {cfg : Config} {c : List Color} (hch : cfg.ch = 3) (h : ∃ col ∈ c, col.ch3 ≠ 0#8) :
    colorsLegal cfg c = false := by
  obtain ⟨col, hmem, hch3⟩ := h
  refine List.all_eq_false.mpr ⟨col, hmem, ?_⟩
  simp [Color.legal, hch, hch3]

/-- Settles O11: both commands with Color words ask for legal Colors before anything else. -/
theorem reservedColorRefusesTheCommand : Obligations.ReservedColorRefusesTheCommand := by
  intro c s hch hcolor
  have hlegal := not_colorsLegal hch hcolor
  simp [exec, execBuild, execUpdate, hlegal]

theorem transmitSeq_outside {s : State} (ha : s.attached = true) (hd : s.drvState = .idle) (hv : s.seqValid = true)
    (hl : s.seq.length ≤ s.cfg.hwDepth) (hx : ∃ ts ∈ s.seq, ¬ InDomain ts) :
    transmitSeq s = .error .symbolOutsideDomain := by
  have hnone : xlateAll s.seq = none := by
    rw [Option.eq_none_iff_forall_ne_some]
    intro words hsome
    obtain ⟨ts, hmem, houtside⟩ := hx
    exact houtside ((xlateAll_some hsome).2 ts hmem)
  simp [transmitSeq, ha, hd, hv, Nat.not_lt.mpr hl, hnone]

/-- Settles O50: a sequence with a symbol outside the domain has no translation. -/
theorem transmitRefusesASymbolOutsideTheDomain : Obligations.TransmitRefusesASymbolOutsideTheDomain :=
  fun _ ha hd hv hl hx => exec_transmit_refused (transmitSeq_outside ha hd hv hl hx)

/-- Settles O44: TASK_FINISH asks for an idle driver, so of the steps of DRV and TASK only the end events are left. -/
theorem driverAndTaskOnlyWait : Obligations.DriverAndTaskOnlyWait := by
  intro i s t hbusy h hagent
  cases i with
  | txComplete => exact .inl rfl
  | txTimeout => exact .inr rfl
  | taskFinish =>
    obtain ⟨-, hidle, -⟩ := execTaskFinish_next h
    simp [hbusy] at hidle
  | _ => simp [Instr.agent] at hagent

/-! ## Which operations write a component (10_state.md section 4) -/

/-- start_frame ends in a report, with SEQ emptied, or it starts the frame it built. -/
theorem startFrame_fails_or_starts {s t : State} {c : List Color} (h : startFrame s c = .ok t) :
    (∃ f, t = s.clearSeq.respond (.failed f)) ∨
      (BuildsFrame s.cfg c ∧ s.attached = true ∧ s.drvState = .idle ∧ (frameSymbols s.cfg c).length ≤ s.cfg.hwDepth ∧
        (∀ ts ∈ frameSymbols s.cfg c, InDomain ts) ∧
        t = { started s (frameSymbols s.cfg c) with taskState := .transmitting }) := by
  obtain ⟨-, rfl⟩ | ⟨-, -, -, rfl⟩ | ⟨-, -, -, -, rfl⟩ | ⟨hbuilds, ha, hidle, hfits, hdom, rfl⟩ := startFrame_ok h
  · exact .inl ⟨_, rfl⟩
  · exact .inl ⟨_, rfl⟩
  · exact .inl ⟨_, rfl⟩
  · have ⟨_, _, hlen⟩ := hbuilds
    rw [← frameSymbols_length_frameLen s.cfg c hlen] at hfits
    exact .inr ⟨hbuilds, ha, hidle, hfits, hdom, rfl⟩

/-- Settles O41, operation by operation: what the next state of the inversion lemma changes stands on the list. -/
theorem onlyListedOperationsWriteAComponent : Obligations.OnlyListedOperationsWriteAComponent := by
  intro i s t h
  cases i with
  | encbit _ | encbyte _ | ticks _ | ticksUp _ =>
    obtain rfl := Host.Outcome.next.inj h
    simp
  | xlate ts =>
    obtain ⟨-, rfl⟩ := execXlate_next h
    simp
  | build c =>
    obtain ⟨-, ⟨-, rfl⟩ | ⟨-, rfl⟩⟩ := execBuild_next h <;> simp [Instr.mnemonic]
  | attach =>
    obtain ⟨-, rfl⟩ := execAttach_next h
    simp [Instr.mnemonic]
  | transmit =>
    obtain ⟨-, ⟨-, rfl⟩ | ⟨-, -, -, rfl⟩ | ⟨-, -, -, -, rfl⟩⟩ := execTransmit_next h <;> simp [Instr.mnemonic, started]
  | chreset =>
    obtain ⟨-, -, rfl⟩ := execChreset_next h
    simp [Instr.mnemonic]
  | update c =>
    obtain ⟨-, -, ⟨-, hf⟩ | ⟨-, rfl⟩⟩ := execUpdate_next h
    · obtain ⟨f, rfl⟩ | ⟨-, -, -, -, -, rfl⟩ := startFrame_fails_or_starts hf <;> simp [Instr.mnemonic, started]
    · simp [Instr.mnemonic]
  | tick =>
    obtain rfl := execTick_next h
    simp [Instr.mnemonic]
  | pEmit =>
    obtain ⟨-, -, -, w, -, -, rfl⟩ := execPEmit_next h
    simp [Instr.mnemonic]
  | hwDone =>
    obtain ⟨-, -, rfl⟩ := execHwDone_next h
    simp [Instr.mnemonic]
  | txComplete =>
    obtain ⟨-, -, rfl⟩ := execTxComplete_next h
    simp [Instr.mnemonic]
  | txTimeout =>
    obtain ⟨-, -, -, rfl⟩ := execTxTimeout_next h
    simp [Instr.mnemonic]
  | taskFinish =>
    obtain ⟨-, -, r, -, ⟨-, rfl⟩ | ⟨-, hf⟩⟩ := execTaskFinish_next h
    · simp [Instr.mnemonic]
    · obtain ⟨f, rfl⟩ | ⟨-, -, -, -, -, rfl⟩ := startFrame_fails_or_starts hf <;> simp [Instr.mnemonic, started]
  | reset =>
    obtain rfl := execReset_next h
    simp [Instr.mnemonic, State.resetWith]


/-! ## What an operation can do to the driver and the channel -/

/-- From `s` to `t` the driver and the channel stay as they are; with the driver idle a posted result may be taken. -/
structure SameChannel (s t : State) : Prop where
  cfg : t.cfg = s.cfg
  attached : s.attached = true → t.attached = true
  drvState : t.drvState = s.drvState
  drvResult : s.drvState = .transmitting → t.drvResult = s.drvResult
  timer : t.timer = s.timer
  timeout : t.timeout = s.timeout
  txDur : t.txDur = s.txDur
  done : t.done = s.done
  sb : t.sb = s.sb
  sbLen : t.sbLen = s.sbLen
  pRun : t.pRun = s.pRun
  pIdx : t.pIdx = s.pIdx
  line : s.line = false → t.line = false
  wave : t.wave = s.wave

/-- From `s` to `t` operation `i` starts the transmission of the sequence it hands over (R171). -/
structure Starts (i : Instr) (s t : State) : Prop where
  attached : s.attached = true
  idle : s.drvState = .idle
  fits : (handedOver s i).length ≤ s.cfg.hwDepth
  inDomain : ∀ ts ∈ handedOver s i, InDomain ts
  frame : (i = .transmit ∧ s.seqValid = true) ∨ ∃ c, BuildsFrame s.cfg c ∧ handedOver s i = frameSymbols s.cfg c
  channel : SameChannel (started s (handedOver s i)) t

/-- The operations with writes of their own to the driver and the channel: the clock, the channel, its resets and the end events. -/
def movesChannel : Instr → Bool
  | .tick | .pEmit | .hwDone | .txComplete | .txTimeout | .chreset | .reset => true
  | .encbit _ | .encbyte _ | .build _ | .attach | .transmit | .update _ | .ticks _ | .ticksUp _ | .xlate _ | .taskFinish => false

/-- Every other operation starts a transmission or does nothing there. -/
theorem exec_same_or_starts {i : Instr} {s t : State} (hmoves : movesChannel i = false) (h : exec i s = .next t) :
    SameChannel s t ∨ Starts i s t := by
  cases i with
  | encbit _ | encbyte _ | ticks _ | ticksUp _ =>
    obtain rfl := Host.Outcome.next.inj h
    exact .inl (by constructor <;> simp)
  | xlate ts =>
    obtain ⟨-, rfl⟩ := execXlate_next h
    exact .inl (by constructor <;> simp)
  | build c =>
    obtain ⟨-, ⟨-, rfl⟩ | ⟨-, rfl⟩⟩ := execBuild_next h <;> exact .inl (by constructor <;> simp)
  | attach =>
    obtain ⟨-, rfl⟩ := execAttach_next h
    exact .inl (by constructor <;> simp)
  | transmit =>
    obtain ⟨ha, ⟨-, rfl⟩ | ⟨-, -, -, rfl⟩ | ⟨hidle, hv, hfits, hdom, rfl⟩⟩ := execTransmit_next h
    · exact .inl (by constructor <;> simp)
    · exact .inl (by constructor <;> simp)
    · exact .inr ⟨ha, hidle, hfits, hdom, .inl ⟨rfl, hv⟩, by constructor <;> simp [handedOver]⟩
  | update c =>
    obtain ⟨-, -, ⟨-, hf⟩ | ⟨-, rfl⟩⟩ := execUpdate_next h
    · obtain ⟨f, rfl⟩ | ⟨hbuilds, ha, hidle, hfits, hdom, rfl⟩ := startFrame_fails_or_starts hf
      · exact .inl (by constructor <;> simp)
      · exact .inr ⟨ha, hidle, hfits, hdom, .inr ⟨c, hbuilds, rfl⟩, by constructor <;> simp [handedOver, started]⟩
    · exact .inl (by constructor <;> simp)
  | taskFinish =>
    obtain ⟨-, hidle, r, -, ⟨-, rfl⟩ | ⟨-, hf⟩⟩ := execTaskFinish_next h
    · exact .inl (by constructor <;> simp [hidle])
    · obtain ⟨f, rfl⟩ | ⟨hbuilds, ha, -, hfits, hdom, rfl⟩ := startFrame_fails_or_starts hf
      · exact .inl (by constructor <;> simp [hidle])
      · exact .inr ⟨ha, hidle, hfits, hdom, .inr ⟨s.pend, hbuilds, rfl⟩, by constructor <;> simp [handedOver, started]⟩
  | tick | pEmit | hwDone | txComplete | txTimeout | chreset | reset => cases hmoves

/-! ## The invariant of the driver and the channel (R44 clauses 2, 3, 6 to 8) -/

/-- The part of `Inv` that speaks of the driver and the channel. -/
structure ChannelInv (s : State) : Prop where
  idle : s.drvState = .idle → s.pRun = false ∧ s.sbLen = 0 ∧ s.pIdx = 0 ∧ s.done = false
  busy : s.drvState = .transmitting → InFlight s
  sbLen_eq : s.sb.length = s.sbLen
  sbWf : ∀ w ∈ s.sb, wordWf w = true
  low : s.line = false
  timer_lt : s.timer < 2 ^ 32
  timeout_lt : s.timeout < 2 ^ 32 - 1
  txDur_lt : s.txDur < 2 ^ 32 - 1

theorem inFlight_of_same {s t : State} (hsame : SameChannel s t) (hbusy : s.drvState = .transmitting) (h : InFlight s) :
    InFlight t where
  attached := hsame.attached h.attached
  sbLen_pos := hsame.sbLen ▸ h.sbLen_pos
  sbLen_le := by rw [hsame.sbLen, hsame.cfg]; exact h.sbLen_le
  pIdx_le := by rw [hsame.sbLen, hsame.pIdx]; exact h.pIdx_le
  txDur_eq := by rw [hsame.txDur, hsame.sb, hsame.sbLen]; exact h.txDur_eq
  timeout_eq := by rw [hsame.timeout, hsame.txDur, hsame.cfg]; exact h.timeout_eq
  noResult := by rw [hsame.drvResult hbusy]; exact h.noResult
  runXorDone := by rw [hsame.pRun, hsame.done]; exact h.runXorDone
  doneAtEnd := by rw [hsame.done, hsame.pIdx, hsame.sbLen]; exact h.doneAtEnd
  notEarly := by rw [hsame.sb, hsame.pIdx, hsame.timer]; exact h.notEarly

theorem ChannelInv.of_same {s t : State} (hsame : SameChannel s t) (h : ChannelInv s) : ChannelInv t where
  idle := by rw [hsame.drvState, hsame.pRun, hsame.sbLen, hsame.pIdx, hsame.done]; exact h.idle
  busy hbusy := have hbusy := hsame.drvState ▸ hbusy; inFlight_of_same hsame hbusy (h.busy hbusy)
  sbLen_eq := by rw [hsame.sb, hsame.sbLen]; exact h.sbLen_eq
  sbWf := hsame.sb ▸ h.sbWf
  low := hsame.line h.low
  timer_lt := hsame.timer ▸ h.timer_lt
  timeout_lt := hsame.timeout ▸ h.timeout_lt
  txDur_lt := hsame.txDur ▸ h.txDur_lt


/-- V9 bounds the duration of every frame of a supported size (R215). -/
theorem seqDur_frameSymbols_le {cfg : Config} {c : List Color} (hsize : c.length ≤ cfg.nMax) :
    seqDur (frameSymbols cfg c) + cfg.marginTicks ≤ longestTimeout cfg := by
  have hbits : (frameBits cfg c).count false + (frameBits cfg c).count true = c.length * cfg.ch * 8 := by
    rw [List.count_false_add_count_true, frameBits_length]
  have hcount : (frameBits cfg c).count false + (frameBits cfg c).count true ≤ cfg.nMax * cfg.ch * 8 := by
    rw [hbits]
    exact Nat.mul_le_mul_right 8 (Nat.mul_le_mul_right cfg.ch hsize)
  have hdata : (frameBits cfg c).count false * (t0h cfg + t0l cfg) + (frameBits cfg c).count true * (t1h cfg + t1l cfg) ≤
      cfg.nMax * cfg.ch * 8 * max (t0h cfg + t0l cfg) (t1h cfg + t1l cfg) := by
    refine le_trans ?_ (Nat.mul_le_mul_right _ hcount)
    rw [Nat.add_mul]
    exact Nat.add_le_add (Nat.mul_le_mul_left _ (le_max_left _ _)) (Nat.mul_le_mul_left _ (le_max_right _ _))
  rw [seqDur_frameSymbols, ← frameBits_count_true, longestTimeout]
  omega

/-- The words of a sequence take the programmed time of the sequence (R217). -/
theorem programmedTime_map_wordOf {q : List TimingSymbol} (h : ∀ ts ∈ q, InDomain ts) :
    programmedTime (q.map wordOf) q.length = seqDur q := by
  have hdur : (q.map wordOf).map wordDur = q.map symbolDur := by
    rw [List.map_map]
    exact List.map_congr_left fun ts hts => wordDur_wordOf (h ts hts)
  rw [programmedTime, ← List.length_map (as := q) wordOf, List.take_length, hdur, seqDur]

/-- A start with a sequence inside the domain that fits SB, on a low line, has a transmission in flight (R171). -/
theorem channelInv_started {s : State} {q : List TimingSymbol} (ha : s.attached = true) (hpos : 1 ≤ q.length)
    (hfits : q.length ≤ s.cfg.hwDepth) (hdom : ∀ ts ∈ q, InDomain ts) (hlow : s.line = false)
    (hdur : seqDur q + s.cfg.marginTicks < 2 ^ 32 - 1) : ChannelInv (started s q) where
  idle hidle := by cases hidle
  busy _ :=
    { attached := ha
      sbLen_pos := hpos
      sbLen_le := hfits
      pIdx_le := Nat.zero_le _
      txDur_eq := (programmedTime_map_wordOf hdom).symm
      timeout_eq := rfl
      noResult := rfl
      runXorDone := rfl
      doneAtEnd := nofun
      notEarly := by simp [started] }
  sbLen_eq := List.length_map ..
  sbWf := by simpa [started] using fun ts hts => wordOf_wf (hdom ts hts)
  low := hlow
  timer_lt := by simp [started]
  timeout_lt := hdur
  txDur_lt := Nat.lt_of_le_of_lt (Nat.le_add_right _ _) hdur

/-- With the driver idle the invariant asks for a channel at rest. -/
theorem channelInv_of_rest {s : State} (hidle : s.drvState = .idle) (hrun : s.pRun = false) (hsb : s.sb = [])
    (hlen : s.sbLen = 0) (hidx : s.pIdx = 0) (hdone : s.done = false) (hlow : s.line = false) (htimer : s.timer < 2 ^ 32)
    (htimeout : s.timeout < 2 ^ 32 - 1) (hdur : s.txDur < 2 ^ 32 - 1) : ChannelInv s where
  idle _ := ⟨hrun, hlen, hidx, hdone⟩
  busy hbusy := by simp [hidle] at hbusy
  sbLen_eq := by simp [hsb, hlen]
  sbWf := by simp [hsb]
  low := hlow
  timer_lt := htimer
  timeout_lt := htimeout
  txDur_lt := hdur

theorem channelInv_reset (cfg : Config) (words : List Word) (slots : List Slot) :
    ChannelInv { State.resetWith cfg with port := words, sched := slots } :=
  have hzero : 0 < 2 ^ 32 - 1 := by decide
  channelInv_of_rest rfl rfl rfl rfl rfl rfl rfl (Nat.two_pow_pos 32) hzero hzero

theorem ChannelInv.inFlight {s : State} (h : ChannelInv s) (hrun : s.pRun = true) : s.drvState = .transmitting ∧ InFlight s := by
  cases hd : s.drvState with
  | idle => simp [(h.idle hd).1] at hrun
  | transmitting => exact ⟨rfl, h.busy hd⟩

theorem exec_tick_channelInv {s t : State} (h : ChannelInv s) (hexec : exec .tick s = .next t) : ChannelInv t := by
  obtain rfl := execTick_next hexec
  refine { h with busy := fun hbusy => ?_, timer_lt := ?_ }
  · have hnotEarly := (h.busy hbusy).notEarly
    have htimer := le_satIncr h.timer_lt
    refine { h.busy hbusy with notEarly := ?_ }
    simp only [show s.drvState = .transmitting from hbusy, if_true]
    exact hnotEarly.trans htimer
  · have := h.timer_lt
    simp only [satIncr, timerMax]
    split <;> omega

theorem exec_pEmit_channelInv {s t : State} (h : ChannelInv s) (hexec : exec .pEmit s = .next t) : ChannelInv t := by
  obtain ⟨hrun, hidx, htime, w, -, hwf, rfl⟩ := execPEmit_next hexec
  obtain ⟨hbusy, hflight⟩ := h.inFlight hrun
  obtain ⟨-, -, hlow⟩ := wordWf_iff.mp hwf
  have hdone : s.done = false := by simpa [hrun] using hflight.runXorDone
  refine { h with idle := ?_, busy := fun _ => ?_, low := hlow }
  · simp [hbusy]
  · exact { hflight with pIdx_le := hidx, doneAtEnd := by simp [hdone], notEarly := htime }

theorem exec_hwDone_channelInv {s t : State} (h : ChannelInv s) (hexec : exec .hwDone s = .next t) : ChannelInv t := by
  obtain ⟨hrun, hidx, rfl⟩ := execHwDone_next hexec
  obtain ⟨hbusy, hflight⟩ := h.inFlight hrun
  refine { h with idle := ?_, busy := fun _ => ?_, low := rfl }
  · simp [hbusy]
  · exact { hflight with runXorDone := rfl, doneAtEnd := fun _ => hidx }


/-! ## The invariant of SEQ (R44 clause 1) -/

/-- The part of `Inv` that speaks of SEQ. -/
structure SeqInv (s : State) : Prop where
  empty : s.seqValid = false → s.seq = []
  frame : s.seqValid = true → HoldsFrame s

theorem seqInv_of_empty {s : State} (hv : s.seqValid = false) (hseq : s.seq = []) : SeqInv s where
  empty _ := hseq
  frame hvalid := by simp [hv] at hvalid

theorem startFrame_seq {s t : State} {c : List Color} (h : startFrame s c = .ok t) : t.seqValid = false ∧ t.seq = [] := by
  obtain ⟨f, rfl⟩ | ⟨-, -, -, -, -, rfl⟩ := startFrame_fails_or_starts h <;> exact ⟨rfl, rfl⟩

theorem exec_cfg {i : Instr} {s t : State} (h : exec i s = .next t) : t.cfg = s.cfg := by
  obtain ⟨-, -, -, -, -, -, -, -, -, -, -, -, -, -, -, hcfg, -, -⟩ := onlyListedOperationsWriteAComponent i s t h
  exact hcfg

/-- Only BUILD fills SEQ, with a frame; the other operations empty it or leave it. -/
theorem exec_seqInv {i : Instr} {s t : State} (h : SeqInv s) (hexec : exec i s = .next t) : SeqInv t := by
  obtain ⟨-, -, -, hseq, -⟩ := onlyListedOperationsWriteAComponent i s t hexec
  cases i with
  | build c =>
    obtain ⟨hlegal, ⟨⟨hpos, hmax, hlen⟩, rfl⟩ | ⟨-, rfl⟩⟩ := execBuild_next hexec
    · exact ⟨nofun, fun _ => ⟨hpos, hmax, c, hlen, hlegal, rfl⟩⟩
    · exact seqInv_of_empty rfl rfl
  | transmit =>
    obtain ⟨-, ⟨-, rfl⟩ | ⟨-, -, -, rfl⟩ | ⟨-, -, -, -, rfl⟩⟩ := execTransmit_next hexec
    · exact ⟨h.empty, h.frame⟩
    · exact seqInv_of_empty rfl rfl
    · exact seqInv_of_empty rfl rfl
  | update c =>
    obtain ⟨-, -, ⟨-, hf⟩ | ⟨-, rfl⟩⟩ := execUpdate_next hexec
    · exact seqInv_of_empty (startFrame_seq hf).1 (startFrame_seq hf).2
    · exact ⟨h.empty, h.frame⟩
  | taskFinish =>
    obtain ⟨-, -, r, -, ⟨-, rfl⟩ | ⟨-, hf⟩⟩ := execTaskFinish_next hexec
    · exact ⟨h.empty, h.frame⟩
    · exact seqInv_of_empty (startFrame_seq hf).1 (startFrame_seq hf).2
  | reset =>
    obtain rfl := execReset_next hexec
    exact seqInv_of_empty rfl rfl
  | _ =>
    obtain ⟨hvalid, hseq⟩ : t.seqValid = s.seqValid ∧ t.seq = s.seq := by simpa [Instr.mnemonic] using hseq
    refine ⟨by rw [hvalid, hseq]; exact h.empty, fun hv => ?_⟩
    obtain ⟨hpos, hmax, c, hlen, hlegal, hframe⟩ := h.frame (hvalid ▸ hv)
    rw [HoldsFrame, exec_cfg hexec, hseq]
    exact ⟨hpos, hmax, c, hlen, hlegal, hframe⟩

/-! ## The invariant but for the pending slot -/

/-- The part of `Inv` that holds whatever HOST sends as a frame. -/
structure CoreInv (s : State) : Prop where
  admitted : Machine.admitted s.cfg = true
  seq : SeqInv s
  channel : ChannelInv s

theorem coreInv_of_inv {s : State} (h : Inv s) : CoreInv s where
  admitted := h.admitted
  seq := ⟨h.seqEmpty, h.seqFrame⟩
  channel := { h with }

/-- What a start hands over is the frame of a buffer of a supported size. -/
theorem Starts.exists_frame {i : Instr} {s t : State} (hcore : CoreInv s) (h : Starts i s t) :
    ∃ c : List Color, c.length ≤ s.cfg.nMax ∧ handedOver s i = frameSymbols s.cfg c := by
  obtain ⟨rfl, hv⟩ | ⟨c, ⟨-, hmax, hlen⟩, hframe⟩ := h.frame
  · obtain ⟨-, hmax, c, hlen, -, hframe⟩ := hcore.seq.frame hv
    exact ⟨c, hlen.trans_le hmax, hframe⟩
  · exact ⟨c, hlen.trans_le hmax, hframe⟩

theorem Starts.channelInv {i : Instr} {s t : State} (hcore : CoreInv s) (h : Starts i s t) : ChannelInv t := by
  obtain ⟨c, hsize, hframe⟩ := h.exists_frame hcore
  have hpos : 1 ≤ (handedOver s i).length := by simp [hframe]
  have hdur : seqDur (handedOver s i) + s.cfg.marginTicks < 2 ^ 32 - 1 := by
    rw [hframe]
    exact (seqDur_frameSymbols_le hsize).trans_lt (admittedFacts hcore.admitted).sum
  exact (channelInv_started h.attached hpos h.fits h.inDomain hcore.channel.low hdur).of_same h.channel

theorem exec_channelInv {i : Instr} {s t : State} (hcore : CoreInv s) (hexec : exec i s = .next t) : ChannelInv t := by
  have h := hcore.channel
  cases i with
  | tick => exact exec_tick_channelInv h hexec
  | pEmit => exact exec_pEmit_channelInv h hexec
  | hwDone => exact exec_hwDone_channelInv h hexec
  | chreset =>
    obtain ⟨-, hidle, rfl⟩ := execChreset_next hexec
    exact channelInv_of_rest hidle rfl rfl rfl rfl rfl rfl h.timer_lt h.timeout_lt h.txDur_lt
  | txComplete =>
    obtain ⟨hbusy, hdone, rfl⟩ := execTxComplete_next hexec
    have hrun : s.pRun = false := by simpa [hdone] using (h.busy hbusy).runXorDone
    exact channelInv_of_rest rfl hrun rfl rfl rfl rfl h.low h.timer_lt h.timeout_lt h.txDur_lt
  | txTimeout =>
    obtain ⟨-, -, -, rfl⟩ := execTxTimeout_next hexec
    exact channelInv_of_rest rfl rfl rfl rfl rfl rfl rfl h.timer_lt h.timeout_lt h.txDur_lt
  | reset =>
    obtain rfl := execReset_next hexec
    exact channelInv_reset s.cfg s.port s.sched
  | _ =>
    obtain hsame | hstarts := exec_same_or_starts rfl hexec
    · exact h.of_same hsame
    · exact hstarts.channelInv hcore

theorem exec_coreInv {i : Instr} {s t : State} (h : CoreInv s) (hexec : exec i s = .next t) : CoreInv t where
  admitted := exec_cfg hexec ▸ h.admitted
  seq := exec_seqInv h.seq hexec
  channel := exec_channelInv h hexec

/-! ## The invariant of the pending slot (R44 clauses 4, 5) -/

/-- The part of `Inv` that speaks of the task and its pending slot. -/
structure TaskInv (s : State) : Prop where
  pendIdle : s.taskState = .idle → s.pendValid = false
  pendEmpty : s.pendValid = false → s.pend = []
  pendLen : s.pend.length ≤ 65535
  pendLegal : colorsLegal s.cfg s.pend = true
  taskAttached : s.taskState = .transmitting → s.attached = true

theorem inv_of_parts {s : State} (hcore : CoreInv s) (htask : TaskInv s) : Inv s :=
  { hcore.channel, htask with
    admitted := hcore.admitted
    seqEmpty := hcore.seq.empty
    seqFrame := hcore.seq.frame }

theorem taskInv_of_noPending {s : State} (hv : s.pendValid = false) (hpend : s.pend = [])
    (ha : s.taskState = .transmitting → s.attached = true) : TaskInv s where
  pendIdle _ := hv
  pendEmpty _ := hpend
  pendLen := by simp [hpend]
  pendLegal := by simp [hpend, colorsLegal]
  taskAttached := ha

theorem startFrame_taskInv {s t : State} {c : List Color} (h : startFrame s c = .ok t) (hidle : s.taskState = .idle)
    (hv : s.pendValid = false) (hpend : s.pend = []) : TaskInv t := by
  obtain ⟨f, rfl⟩ | ⟨-, ha, -, -, -, rfl⟩ := startFrame_fails_or_starts h
  · exact taskInv_of_noPending hv hpend (by simp [hidle])
  · exact taskInv_of_noPending hv hpend fun _ => ha

/-- UPDATE pends what the command word can carry; TASK_FINISH empties the slot. -/
theorem exec_taskInv {i : Instr} {s t : State} (h : TaskInv s) (hlen : i.lenFits = true) (hexec : exec i s = .next t) :
    TaskInv t := by
  obtain ⟨hatt, htask, hpend, -⟩ := onlyListedOperationsWriteAComponent i s t hexec
  cases i with
  | attach =>
    obtain ⟨-, rfl⟩ := execAttach_next hexec
    exact { h with taskAttached := fun _ => rfl }
  | update c =>
    obtain ⟨hlegal, ha, ⟨hidle, hf⟩ | ⟨hwaits, rfl⟩⟩ := execUpdate_next hexec
    · have hv := h.pendIdle hidle
      exact startFrame_taskInv hf hidle hv (h.pendEmpty hv)
    · exact ⟨by simp [hwaits], nofun, of_decide_eq_true hlen, hlegal, fun _ => ha⟩
  | taskFinish =>
    obtain ⟨-, -, r, -, ⟨hv, rfl⟩ | ⟨-, hf⟩⟩ := execTaskFinish_next hexec
    · exact taskInv_of_noPending hv (h.pendEmpty hv) nofun
    · exact startFrame_taskInv hf rfl rfl rfl
  | reset =>
    obtain rfl := execReset_next hexec
    exact taskInv_of_noPending rfl rfl nofun
  | _ =>
    have hatt : t.attached = s.attached := by simpa [Instr.mnemonic] using hatt
    have htask : t.taskState = s.taskState := by simpa [Instr.mnemonic] using htask
    obtain ⟨hvalid, hpend⟩ : t.pendValid = s.pendValid ∧ t.pend = s.pend := by simpa [Instr.mnemonic] using hpend
    constructor <;> simp only [hatt, htask, hvalid, hpend, exec_cfg hexec]
    exacts [h.pendIdle, h.pendEmpty, h.pendLen, h.pendLegal, h.taskAttached]

theorem exec_inv {i : Instr} {s t : State} (h : Inv s) (hlen : i.lenFits = true) (hexec : exec i s = .next t) : Inv t :=
  inv_of_parts (exec_coreInv (coreInv_of_inv h) hexec) (exec_taskInv { h with } hlen hexec)

/-! ## A step keeps the invariants -/

/-- The invariant does not speak of the schedule and the port. -/
theorem inv_unscheduled {s : State} (h : Inv s) (slots : List Slot) (words : List Word) :
    Inv { s with sched := slots, port := words } :=
  { h with busy := fun hbusy => { h.busy hbusy with } }

/-- Whatever the schedule gives next has an operand that fits LEN (R98). -/
theorem fetch_lenFits {s s' : State} {i : Instr} (h : fetch s = .ok (i, s')) : i.lenFits = true := by
  unfold fetch at h
  split at h
  · cases h
  · split at h
    · next hread =>
      cases h
      obtain ⟨-, -, -, hlen⟩ := decodeCommand_ok hread
      exact hlen
    · cases h
  · split at h
    · next hread =>
      cases h
      exact (decodeLabel_ok hread).2
    · cases h

/-- Settles O38: the parts of the invariant are kept one by one, and the decoder bounds the frame that UPDATE pends. -/
theorem stepKeepsTheInvariant : Obligations.StepKeepsTheInvariant := by
  intro s t hinv hstep
  obtain ⟨-, i, s', hfetch, hexec⟩ := step_next hstep
  rw [fetch_ok hfetch] at hexec
  exact exec_inv (inv_unscheduled hinv _ _) (fetch_lenFits hfetch) hexec

theorem startFrame_taskForm {s t : State} {c : List Color} (h : startFrame s c = .ok t) (htask : s.taskState = .idle)
    (hidle : s.drvState = .idle) (hresult : s.drvResult = .noResult) : TaskForm t := by
  obtain ⟨f, rfl⟩ | ⟨-, -, -, -, -, rfl⟩ := startFrame_fails_or_starts h
  · exact ⟨fun _ => ⟨hidle, hresult⟩, by simp [htask], rfl⟩
  · exact ⟨nofun, fun _ => .inl rfl, rfl⟩

/-- Within HOST's duty only the task starts a transmission, so it waits whenever the driver is busy. -/
theorem exec_taskForm {i : Instr} {s t : State} (h : TaskForm s) (hduty : keepsDuty i = true) (hexec : exec i s = .next t) :
    TaskForm t := by
  have waiting (hbusy : s.drvState = .transmitting) : s.taskState = .transmitting := by
    cases htask : s.taskState with
    | idle => simp [(h.idle htask).1] at hbusy
    | transmitting => rfl
  obtain ⟨-, htask, -, hseq, hdrv, -⟩ := onlyListedOperationsWriteAComponent i s t hexec
  cases i with
  | build _ | transmit | chreset => cases hduty
  | update c =>
    obtain ⟨-, -, ⟨hidle, hf⟩ | ⟨-, rfl⟩⟩ := execUpdate_next hexec
    · exact startFrame_taskForm hf hidle (h.idle hidle).1 (h.idle hidle).2
    · exact { h with }
  | txComplete =>
    obtain ⟨hbusy, -, rfl⟩ := execTxComplete_next hexec
    exact ⟨by simp [waiting hbusy], fun _ => .inr nofun, h.noSeq⟩
  | txTimeout =>
    obtain ⟨hbusy, -, -, rfl⟩ := execTxTimeout_next hexec
    exact ⟨by simp [waiting hbusy], fun _ => .inr nofun, h.noSeq⟩
  | taskFinish =>
    obtain ⟨-, hidle, r, -, ⟨-, rfl⟩ | ⟨-, hf⟩⟩ := execTaskFinish_next hexec
    · exact ⟨fun _ => ⟨hidle, rfl⟩, nofun, h.noSeq⟩
    · exact startFrame_taskForm hf rfl hidle rfl
  | reset =>
    obtain rfl := execReset_next hexec
    exact ⟨fun _ => ⟨rfl, rfl⟩, nofun, rfl⟩
  | _ =>
    have htask : t.taskState = s.taskState := by simpa [Instr.mnemonic] using htask
    obtain ⟨hvalid, -⟩ : t.seqValid = s.seqValid ∧ t.seq = s.seq := by simpa [Instr.mnemonic] using hseq
    obtain ⟨hstate, hresult⟩ : t.drvState = s.drvState ∧ t.drvResult = s.drvResult := by simpa [Instr.mnemonic] using hdrv
    constructor <;> simp only [htask, hvalid, hstate, hresult]
    exacts [h.idle, h.waiting, h.noSeq]

/-- Settles O39: the operation that the schedule gives keeps the form, and taking it touches no component. -/
theorem dutifulStepKeepsTheTaskForm : Obligations.DutifulStepKeepsTheTaskForm := by
  intro s s' t i _ hform hfetch hduty hstep
  obtain ⟨-, j, s'', hfetch', hexec⟩ := step_next hstep
  obtain ⟨rfl, rfl⟩ : i = j ∧ s' = s'' := by simpa [hfetch] using hfetch'
  have hform' : TaskForm s' := by
    rw [fetch_ok hfetch]
    exact { hform with }
  exact exec_taskForm hform' hduty hexec

/-- Settles O31: after reset nothing runs, waits or is pending. -/
theorem resetMeetsTheInvariants : Obligations.ResetMeetsTheInvariants := by
  have reset (cfg : Config) (hadm : admitted cfg = true) :
      Inv (State.resetWith cfg) ∧ TaskForm (State.resetWith cfg) := by
    have hcore : CoreInv (State.resetWith cfg) := ⟨hadm, seqInv_of_empty rfl rfl, channelInv_reset cfg [] []⟩
    exact ⟨inv_of_parts hcore (taskInv_of_noPending rfl rfl nofun), ⟨fun _ => ⟨rfl, rfl⟩, nofun, rfl⟩⟩
  exact ⟨reset, reset _ (by decide)⟩

/-! ## UPDATE always answers (44_led_task.md section 3) -/

/-- Settles O28: a waiting task pends, and in an idle one start_frame is total, its reports leaving the task IDLE and SEQ empty. -/
theorem updateIsNeverWedged : Obligations.UpdateIsNeverWedged := by
  intro c s hinv ha hlegal
  cases htask : s.taskState with
  | transmitting => exact ⟨_, exec_update_waiting hlegal ha htask, fun hresp => absurd rfl hresp⟩
  | idle =>
    obtain ⟨t, hf⟩ := startFrame_total (s := s.giveNothing) c ha hinv.admitted
    refine ⟨t, by rw [exec_update_idle hlegal ha htask, hf, stepOf], ?_⟩
    obtain ⟨f, rfl⟩ | ⟨-, -, -, -, -, rfl⟩ := startFrame_fails_or_starts hf
    · exact fun _ => ⟨htask, rfl, rfl⟩
    · exact fun hresp => absurd rfl hresp

/-! ## Runs (00_scope.md R7) -/

/-- What every operation of a list keeps holds after the run. -/
theorem execAll_keeps {P : State → Prop} {is : List Instr} {s t : State}
    (hkeep : ∀ i ∈ is, ∀ a b : State, P a → exec i a = .next b → P b) (hs : P s) (h : execAll is s = .next t) : P t := by
  induction is generalizing s with
  | nil =>
    obtain rfl := Host.Outcome.next.inj h
    exact hs
  | cons i is ih =>
    obtain ⟨u, hi, his⟩ := execAll_cons.mp h
    exact ih (fun j hj => hkeep j (List.mem_cons_of_mem i hj)) (hkeep i List.mem_cons_self s u hs hi) his

theorem execAll_coreInv {is : List Instr} {s t : State} (h : CoreInv s) (hrun : execAll is s = .next t) : CoreInv t :=
  execAll_keeps (fun _ _ _ _ => exec_coreInv) h hrun

/-! ## A run that leaves the transmission in flight (42_transmission_driver.md section 5) -/

/-- The runs of the words that have not left the channel. -/
def unsent (s : State) : List WaveItem :=
  (s.sb.drop s.pIdx).flatMap wordRuns

/-- Over the operations `is`, from `s` to `t`, the transmission stays in flight: TIMER counts the ticks up to its greatest value, and what
is sent and what is still to be sent stay together the same. -/
structure FlightRun (is : List Instr) (s t : State) : Prop where
  busy : t.drvState = .transmitting
  timeout : t.timeout = s.timeout
  done : s.done = true → t.done = true
  timer : min (s.timer + is.count .tick) timerMax ≤ t.timer
  wave : t.wave ++ unsent t = s.wave ++ unsent s

theorem FlightRun.trans {is js : List Instr} {s t u : State} (h : FlightRun is s t) (h' : FlightRun js t u) :
    FlightRun (is ++ js) s u where
  busy := h'.busy
  timeout := h'.timeout.trans h.timeout
  done hdone := h'.done (h.done hdone)
  timer := by
    have htimer := h.timer
    have htimer' := h'.timer
    rw [List.count_append]
    omega
  wave := h'.wave.trans h.wave

theorem flightRun_of_same {i : Instr} {s t : State} (hi : i ≠ .tick) (hbusy : s.drvState = .transmitting)
    (hsame : SameChannel s t) : FlightRun [i] s t where
  busy := hsame.drvState.trans hbusy
  timeout := hsame.timeout
  done := by rw [hsame.done]; exact id
  timer := by simp [hsame.timer, hi]
  wave := by rw [hsame.wave, unsent, hsame.sb, hsame.pIdx, unsent]

/-- The word at P_IDX is the first of those still to be sent (R177). -/
theorem unsent_eq_cons {s : State} {w : Word} (hw : s.sb[s.pIdx]? = some w) :
    unsent s = wordRuns w ++ (s.sb.drop (s.pIdx + 1)).flatMap wordRuns := by
  obtain ⟨hlt, rfl⟩ := List.getElem?_eq_some_iff.mp hw
  rw [unsent, List.drop_eq_getElem_cons hlt, List.flatMap_cons]

theorem exec_flightRun {i : Instr} {s t : State} (hbusy : s.drvState = .transmitting) (hleaves : leavesInFlight i = true)
    (hexec : exec i s = .next t) : FlightRun [i] s t := by
  cases i with
  | tick =>
    obtain rfl := execTick_next hexec
    exact ⟨hbusy, rfl, id, by simp [hbusy, satIncr], rfl⟩
  | pEmit =>
    obtain ⟨-, -, -, w, hw, -, rfl⟩ := execPEmit_next hexec
    exact ⟨hbusy, rfl, id, by simp, by rw [unsent_eq_cons hw, ← List.append_assoc]; rfl⟩
  | hwDone =>
    obtain ⟨-, -, rfl⟩ := execHwDone_next hexec
    exact ⟨hbusy, rfl, fun _ => rfl, by simp, rfl⟩
  | chreset =>
    obtain ⟨-, hidle, -⟩ := execChreset_next hexec
    simp [hbusy] at hidle
  | txComplete | txTimeout | reset => cases hleaves
  | _ =>
    obtain hsame | hstarts := exec_same_or_starts rfl hexec
    · exact flightRun_of_same nofun hbusy hsame
    · cases hbusy.symm.trans hstarts.idle

theorem execAll_flightRun {is : List Instr} {s t : State} (hbusy : s.drvState = .transmitting)
    (hleaves : ∀ i ∈ is, leavesInFlight i = true) (hrun : execAll is s = .next t) : FlightRun is s t := by
  induction is generalizing s with
  | nil =>
    obtain rfl := Host.Outcome.next.inj hrun
    exact ⟨hbusy, rfl, id, by simp, rfl⟩
  | cons i is ih =>
    obtain ⟨u, hi, his⟩ := execAll_cons.mp hrun
    have hstep := exec_flightRun hbusy (hleaves i List.mem_cons_self) hi
    exact hstep.trans (ih hstep.busy (fun j hj => hleaves j (List.mem_cons_of_mem i hj)) his)

/-! ## What a completed transmission has sent (R185) -/

/-- After the last symbol nothing is left to be sent. -/
theorem unsent_eq_nil {s : State} (hlen : s.sb.length = s.sbLen) (hend : s.pIdx = s.sbLen) : unsent s = [] := by
  rw [unsent, hend, ← hlen, List.drop_length, List.flatMap_nil]

theorem wave_of_completed {s u v : State} {between : List Instr} (hcore : CoreInv s) (hbusy : s.drvState = .transmitting)
    (hleaves : ∀ i ∈ between, leavesInFlight i = true) (hrun : execAll between s = .next u)
    (hcomplete : exec .txComplete u = .next v) : v.wave = s.wave ++ unsent s := by
  have hflight := execAll_flightRun hbusy hleaves hrun
  have hchannel := (execAll_coreInv hcore hrun).channel
  obtain ⟨-, hdone, rfl⟩ := execTxComplete_next hcomplete
  have hsent := unsent_eq_nil hchannel.sbLen_eq ((hchannel.busy hflight.busy).doneAtEnd hdone)
  rw [← hflight.wave, hsent, List.append_nil]

/-- The word of a symbol puts the symbol's runs on the pin (R185). -/
theorem wordRuns_wordOf {ts : TimingSymbol} (h : InDomain ts) : wordRuns (wordOf ts) = symbolRuns ts := by
  rw [wordRuns, symbolRuns]
  rcases h with ⟨hhi, hhi', hlo, hlo'⟩ | ⟨hhi, -, hlo'⟩
  · obtain ⟨hdur0, hlvl0, hdur1, hlvl1⟩ := wordOf_data hhi hhi' hlo hlo'
    rw [hdur0, hlvl0, hdur1, hlvl1, if_neg (by omega)]
  · obtain ⟨hdur0, hlvl0, hdur1, hlvl1⟩ := wordOf_reset hhi hlo'
    rw [hdur0, hlvl0, hdur1, hlvl1, if_pos hhi]

theorem Starts.unsent {i : Instr} {s t : State} (h : Starts i s t) : unsent t = (handedOver s i).flatMap symbolRuns := by
  rw [Machine.unsent, h.channel.sb, h.channel.pIdx, started, List.drop_zero, List.flatMap_map]
  exact List.flatMap_congr fun ts hts => wordRuns_wordOf (h.inDomain ts hts)

/-- A step from an idle driver to a busy one is a start. -/
theorem starts_of_idle_busy {i : Instr} {s t : State} (hexec : exec i s = .next t) (hidle : s.drvState = .idle)
    (hbusy : t.drvState = .transmitting) : Starts i s t := by
  obtain ⟨-, -, -, -, -, -, -, -, hstarts, -⟩ := flagsAreSetAndClearedAsListed i s t hexec
  have hmem := hstarts hidle hbusy
  have hmoves : movesChannel i = false := by
    cases i with
    | tick | pEmit | hwDone | txComplete | txTimeout | chreset | reset => simp [Instr.mnemonic] at hmem
    | _ => rfl
  obtain hsame | hstarts := exec_same_or_starts hmoves hexec
  · cases hbusy.symm.trans (hsame.drvState.trans hidle)
  · exact hstarts

/-- Settles O45: along the run the sent and the unsent runs stay together the same, and at TX_COMPLETE none is unsent; a start has the runs
of its whole sequence unsent. -/
theorem completedTransmissionSendsExactlyItsSequence : Obligations.CompletedTransmissionSendsExactlyItsSequence := by
  constructor
  · intro s u v between hinv hbusy hleaves hrun hcomplete
    exact wave_of_completed (coreInv_of_inv hinv) hbusy hleaves hrun hcomplete
  · intro start s t u v between hinv hidle hstart hbusy hleaves hrun hcomplete
    have hstarts := starts_of_idle_busy hstart hidle hbusy
    have hcore := exec_coreInv (coreInv_of_inv hinv) hstart
    rw [wave_of_completed hcore hbusy hleaves hrun hcomplete, hstarts.unsent, hstarts.channel.wave, started]

/-! ## The end of the wait (R184, R268) -/

/-- Settles O46: TIMER within TIMEOUT shuts TX_TIMEOUT out, and so does DONE, which stays along the run. -/
theorem healthyTransmissionCannotTimeOut : Obligations.HealthyTransmissionCannotTimeOut := by
  constructor
  · intro s htimer
    exact exec_txTimeout_notEnabled (by omega)
  · intro s t u between hinv hhwDone hleaves hrun
    obtain ⟨hpRun, -, rfl⟩ := execHwDone_next hhwDone
    obtain ⟨hbusy, -⟩ := (coreInv_of_inv hinv).channel.inFlight hpRun
    have hflight := execAll_flightRun (by exact hbusy) hleaves hrun
    have hdone : u.done = true := hflight.done rfl
    exact ⟨exec_txTimeout_notEnabled (by simp [hdone]), _, exec_txComplete_enabled ⟨hflight.busy, hdone⟩, rfl⟩

/-- Past the timeout one of the end events posts a result and nothing of the task changes. -/
theorem exists_end_event {s : State} (hbusy : s.drvState = .transmitting) (hlate : s.timeout < s.timer) :
    ∃ v, (exec .txComplete s = .next v ∨ exec .txTimeout s = .next v) ∧
      v.drvState = .idle ∧ v.drvResult ≠ .noResult ∧ v.taskState = s.taskState := by
  cases hdone : s.done with
  | true => exact ⟨_, .inl (exec_txComplete_enabled ⟨hbusy, hdone⟩), rfl, nofun, rfl⟩
  | false => exact ⟨_, .inr (exec_txTimeout_enabled ⟨hbusy, hdone, hlate⟩), rfl, nofun, rfl⟩

/-- The task holds a result that it has not reported, RESP being `l`. -/
structure HoldsResult (cfg : Config) (d : DrvResult) (l : List Result) (s : State) : Prop where
  cfg : s.cfg = cfg
  attached : s.attached = true
  task : s.taskState = .transmitting
  idle : s.drvState = .idle
  result : s.drvResult = d
  resp : s.resp = l

/-- A waiting task only pends, and an idle driver has no end event. -/
theorem exec_holdsResult {cfg : Config} {d : DrvResult} {l : List Result} {i : Instr} {s t : State}
    (hleaves : leavesResult i = true) (h : HoldsResult cfg d l s) (hexec : exec i s = .next t) : HoldsResult cfg d l t := by
  obtain ⟨hatt, htask, -, -, hdrv, -, -, -, -, -, -, -, -, -, hresp, hcfg, -, -⟩ :=
    onlyListedOperationsWriteAComponent i s t hexec
  cases i with
  | attach =>
    obtain ⟨-, rfl⟩ := execAttach_next hexec
    exact { h with attached := rfl }
  | update c =>
    obtain ⟨-, -, ⟨hidle, -⟩ | ⟨-, rfl⟩⟩ := execUpdate_next hexec
    · cases h.task.symm.trans hidle
    · exact { h with }
  | txComplete =>
    obtain ⟨hbusy, -⟩ := execTxComplete_next hexec
    cases h.idle.symm.trans hbusy
  | txTimeout =>
    obtain ⟨hbusy, -⟩ := execTxTimeout_next hexec
    cases h.idle.symm.trans hbusy
  | build _ | transmit | chreset | taskFinish | reset => cases hleaves
  | _ =>
    have hatt : t.attached = s.attached := by simpa [Instr.mnemonic] using hatt
    have htask : t.taskState = s.taskState := by simpa [Instr.mnemonic] using htask
    obtain ⟨hstate, hresult⟩ : t.drvState = s.drvState ∧ t.drvResult = s.drvResult := by simpa [Instr.mnemonic] using hdrv
    have hresp : t.resp = s.resp := by simpa [Instr.mnemonic] using hresp
    exact ⟨hcfg.trans h.cfg, hatt.trans h.attached, htask.trans h.task, hstate.trans h.idle, hresult.trans h.result,
      hresp.trans h.resp⟩

/-- TASK_FINISH reports the posted result; a pending frame is then in flight or has its own one entry (R233). -/
theorem exec_taskFinish_answers {s : State} (henabled : taskFinishEnabled s = true) (ha : s.attached = true)
    (hadm : admitted s.cfg = true) :
    ∃ (v : State) (more : List Result), exec .taskFinish s = .next v ∧ v.resp = s.resp ++ reported s.drvResult ++ more ∧
      (s.pendValid = false → more = [] ∧ v.taskState = .idle) ∧
      (s.pendValid = true →
        (more = [] ∧ v.taskState = .transmitting) ∨ ((∃ f, more = [.failed f]) ∧ v.taskState = .idle)) := by
  cases hpend : s.pendValid with
  | false => exact ⟨_, [], exec_taskFinish_noPending henabled hpend, (List.append_nil _).symm, fun _ => ⟨rfl, rfl⟩, nofun⟩
  | true =>
    obtain ⟨t, hf⟩ := startFrame_total (s := s.pendingTaken) s.pend ha hadm
    have hstep : exec .taskFinish s = .next t := by rw [exec_taskFinish_pending henabled hpend, hf, stepOf]
    obtain ⟨f, rfl⟩ | ⟨-, -, -, -, -, rfl⟩ := startFrame_fails_or_starts hf
    · exact ⟨_, [.failed f], hstep, rfl, nofun, fun _ => .inr ⟨⟨f, rfl⟩, rfl⟩⟩
    · exact ⟨_, [], hstep, (List.append_nil _).symm, nofun, fun _ => .inl ⟨rfl, rfl⟩⟩

/-- Settles O52: TIMER counts the ticks of the run, so it has passed TIMEOUT, which V9 keeps below its greatest value; and until the report
the task holds its result. -/
theorem everyWaitEndsOnceTheTimeoutHasPassed : Obligations.EveryWaitEndsOnceTheTimeoutHasPassed := by
  constructor
  · intro s u between hinv hbusy hleaves hrun hticks
    have hflight := execAll_flightRun hbusy hleaves hrun
    have htimer := hflight.timer
    have hbound := hinv.timeout_lt
    exact exists_end_event hflight.busy (by rw [hflight.timeout]; simp only [timerMax] at htimer; omega)
  · intro s u waiting hinv htask hidle hresult hleaves hrun
    have hholds : HoldsResult s.cfg s.drvResult s.resp u :=
      execAll_keeps (fun i hi _ _ => exec_holdsResult (hleaves i hi))
        ⟨rfl, hinv.taskAttached htask, htask, hidle, rfl, rfl⟩ hrun
    have henabled := taskFinishEnabled_iff.mpr ⟨hholds.task, hholds.idle, hholds.result.symm ▸ hresult⟩
    obtain ⟨v, more, hexec, hresp, hfree, hpending⟩ :=
      exec_taskFinish_answers henabled hholds.attached (hholds.cfg.symm ▸ hinv.admitted)
    refine ⟨hholds.resp, v, more, hexec, by rw [hresp, hholds.resp, hholds.result], ?_⟩
    cases hpend : u.pendValid with
    | false => simp [(hfree hpend).1]
    | true => obtain ⟨rfl, -⟩ | ⟨⟨f, rfl⟩, -⟩ := hpending hpend <;> simp

/-! ## The pseudo-operations (R105) -/

/-- `TICK*k` of a busy driver, TIMER staying below its greatest value. -/
theorem execAll_tickTimes {s : State} {k : Nat} (hbusy : s.drvState = .transmitting) (hmax : s.timer + k ≤ 2 ^ 32 - 1) :
    ∃ reply, execAll (tickTimes k) s = .next { s with now := s.now + k, timer := s.timer + k, reply := reply } := by
  induction k generalizing s with
  | zero => exact ⟨s.reply, rfl⟩
  | succ k ih =>
    have htimer : min (s.timer + 1) (2 ^ 32 - 1) = s.timer + 1 := min_eq_left (by omega)
    have htick : exec .tick s = .next { s with now := s.now + 1, timer := s.timer + 1, reply := none } := by
      rw [tickAdvancesTimeAndSaturates s, if_pos hbusy, htimer]
    obtain ⟨reply, hrest⟩ := ih (s := { s with now := s.now + 1, timer := s.timer + 1, reply := none }) hbusy
      (by simp only; omega)
    refine ⟨reply, execAll_cons.mpr ⟨_, htick, ?_⟩⟩
    rw [← tickTimes, hrest, Nat.add_right_comm s.now, Nat.add_right_comm s.timer]
    rfl

theorem execAll_tickTimes_inv {s t : State} {k : Nat} (h : Inv s) (hrun : execAll (tickTimes k) s = .next t) : Inv t := by
  refine execAll_keeps (fun i hi _ _ ha hexec => ?_) h hrun
  obtain rfl := List.eq_of_mem_replicate hi
  exact exec_inv ha rfl hexec

theorem programmedTime_mono (sb : List Word) : Monotone (programmedTime sb) := by
  refine monotone_nat_of_le_succ fun i => ?_
  simp only [programmedTime, List.take_add_one, List.map_append, List.sum_append]
  exact Nat.le_add_right _ _

/-- The state after the next symbol of DRAIN: the clock has run up to its programmed time, and it has left the channel (R105). -/
def State.afterSymbol (s : State) (w : Word) : State :=
  { s with
    now := s.now + (programmedTime s.sb (s.pIdx + 1) - s.timer)
    timer := max s.timer (programmedTime s.sb (s.pIdx + 1))
    wave := s.wave ++ wordRuns w
    line := false
    pIdx := s.pIdx + 1
    reply := none }

theorem programmedTime_le_txDur {s : State} (h : Inv s) (hrun : s.pRun = true) {i : Nat} (hi : i ≤ s.sbLen) :
    programmedTime s.sb i ≤ s.txDur := by
  rw [(inFlight_of_pRun h hrun).txDur_eq]
  exact programmedTime_mono s.sb hi

theorem execAll_drainSymbol {s : State} (h : Inv s) (hbusy : s.drvState = .transmitting) (hrun : s.pRun = true) (hidx : s.pIdx < s.sbLen) :
    ∃ w, s.sb[s.pIdx]? = some w ∧ Inv (s.afterSymbol w) ∧
      execAll (tickTimes (programmedTime s.sb (s.pIdx + 1) - s.timer) ++ [.pEmit]) s = .next (s.afterSymbol w) := by
  obtain ⟨w, hw, hwf⟩ := exists_wf_word h hidx
  obtain ⟨-, -, hlow⟩ := wordWf_iff.mp hwf
  have htime : programmedTime s.sb (s.pIdx + 1) ≤ s.txDur := programmedTime_le_txDur h hrun hidx
  have hbound := h.txDur_lt
  have htimer := h.timer_lt
  obtain ⟨reply, hticks⟩ :=
    execAll_tickTimes (k := programmedTime s.sb (s.pIdx + 1) - s.timer) hbusy (by omega)
  rw [add_tsub_eq_max] at hticks
  have hemit : exec .pEmit { s with
      now := s.now + (programmedTime s.sb (s.pIdx + 1) - s.timer)
      timer := max s.timer (programmedTime s.sb (s.pIdx + 1))
      reply := reply } = .next (s.afterSymbol w) := by
    rw [exec_pEmit_enabled (by exact pEmitEnabled_iff.mpr ⟨hrun, hidx, le_max_right _ _⟩) (by exact hw) hwf, hlow]
    rfl
  exact ⟨w, hw, exec_inv (execAll_tickTimes_inv h hticks) rfl hemit,
    execAll_append.mpr ⟨_, hticks, execAll_cons.mpr ⟨_, hemit, rfl⟩⟩⟩

/-- The healthy channel emits the `k` symbols still to come, each at its programmed time (R105, R185). -/
theorem execAll_drainSymbols {s : State} {k : Nat} (h : Inv s) (hbusy : s.drvState = .transmitting) (hrun : s.pRun = true)
    (hk : s.pIdx + k = s.sbLen) :
    ∃ reply, execAll (drainSymbols s.sb s.timer s.pIdx k) s = .next { s with
      now := s.now + (s.txDur - s.timer)
      timer := max s.timer s.txDur
      wave := s.wave ++ unsent s
      line := false
      pIdx := s.pIdx + k
      reply := reply } := by
  induction k generalizing s with
  | zero =>
    have hend : s.pIdx = s.sbLen := hk
    have hlate : s.txDur ≤ s.timer := by
      rw [(h.busy hbusy).txDur_eq, ← hend]
      exact (h.busy hbusy).notEarly
    refine ⟨s.reply, ?_⟩
    rw [unsent_eq_nil h.sbLen_eq hend, List.append_nil, Nat.sub_eq_zero_of_le hlate, max_eq_left hlate, ← h.low]
    rfl
  | succ k ih =>
    have htime : programmedTime s.sb (s.pIdx + 1) ≤ s.txDur := programmedTime_le_txDur h hrun (by omega)
    obtain ⟨w, hw, hinv, hsymbol⟩ := execAll_drainSymbol h hbusy hrun (by omega)
    obtain ⟨reply, hrest⟩ := ih hinv hbusy hrun (by simp only [State.afterSymbol]; omega)
    refine ⟨reply, ?_⟩
    rw [drainSymbols, List.append_cons, execAll_append]
    refine ⟨_, hsymbol, hrest.trans ?_⟩
    have hnow : s.now + (programmedTime s.sb (s.pIdx + 1) - s.timer) +
        (s.txDur - max s.timer (programmedTime s.sb (s.pIdx + 1))) = s.now + (s.txDur - s.timer) := by omega
    have htimer : max (max s.timer (programmedTime s.sb (s.pIdx + 1))) s.txDur = max s.timer s.txDur := by omega
    have hsent : s.wave ++ wordRuns w ++ unsent (s.afterSymbol w) = s.wave ++ unsent s := by
      rw [unsent_eq_cons hw, List.append_assoc]
      rfl
    have hidx : s.pIdx + 1 + k = s.pIdx + (k + 1) := by omega
    rw [← hnow, ← htimer, ← hsent, ← hidx]
    rfl

theorem exec_hwDone_enabled {s : State} (hrun : s.pRun = true) (hidx : s.pIdx = s.sbLen) :
    exec .hwDone s = .next { s with done := true, pRun := false, line := false, reply := none } := by
  obtain ⟨henabled, -⟩ := hwDoneReportsAfterTheLastSymbol
  exact henabled s hrun hidx

/-- Settles O47: after the symbols still to come P_IDX stands at SB_LEN, so HW_DONE and then TX_COMPLETE are enabled. -/
theorem drainCompletesTheTransmission : Obligations.DrainCompletesTheTransmission := by
  intro s hinv hlegal
  obtain ⟨hbusy, hrun⟩ : s.drvState = .transmitting ∧ s.pRun = true := by simpa [drainLegal] using hlegal
  have hidx : s.pIdx + (s.sbLen - s.pIdx) = s.sbLen := Nat.add_sub_of_le (hinv.busy hbusy).pIdx_le
  obtain ⟨reply, hsymbols⟩ := execAll_drainSymbols hinv hbusy hrun hidx
  exact ⟨_, execAll_append.mpr ⟨_, hsymbols, execAll_cons.mpr ⟨_, exec_hwDone_enabled hrun hidx, execAll_cons.mpr
    ⟨_, exec_txComplete_enabled ⟨hbusy, rfl⟩, rfl⟩⟩⟩, rfl, rfl, rfl, rfl, rfl, rfl, rfl, rfl⟩

/-- Settles O48: the ticks bring TIMER to TIMEOUT + 1, and DONE stays clear. -/
theorem stalledTransmissionTimesOut : Obligations.StalledTransmissionTimesOut := by
  intro s hinv hlegal
  obtain ⟨⟨hbusy, hdone⟩, htimer⟩ : (s.drvState = .transmitting ∧ s.done = false) ∧ s.timer ≤ s.timeout := by
    simpa [stallLegal] using hlegal
  have hbound := hinv.timeout_lt
  have hend : s.timer + (s.timeout + 1 - s.timer) = s.timeout + 1 := by omega
  obtain ⟨reply, hticks⟩ := execAll_tickTimes (k := s.timeout + 1 - s.timer) hbusy (by omega)
  rw [hend] at hticks
  exact ⟨_, execAll_append.mpr ⟨_, hticks, execAll_cons.mpr
    ⟨_, exec_txTimeout_enabled ⟨hbusy, hdone, Nat.lt_succ_self _⟩, rfl⟩⟩, rfl, rfl, rfl, rfl, rfl, rfl, rfl, rfl, rfl, rfl⟩

/-! ## Every started frame gets its answer (R268) -/

/-- From `s` to `u` the driver has come to hold a posted result, and the task stands as it stood. -/
structure PostsResult (s u : State) : Prop where
  idle : u.drvState = .idle
  result : u.drvResult ≠ .noResult
  cfg : u.cfg = s.cfg
  attached : u.attached = s.attached
  task : u.taskState = s.taskState
  pendValid : u.pendValid = s.pendValid
  resp : u.resp = s.resp

theorem exists_reported {d : DrvResult} (h : d ≠ .noResult) :
    ∃ r, (r = .ok ∨ r = .failed .hardwareTimeout) ∧ reported d = [r] := by
  cases d with
  | noResult => exact absurd rfl h
  | ok => exact ⟨_, .inl rfl, rfl⟩
  | hardwareTimeout => exact ⟨_, .inr rfl, rfl⟩

/-- The result of a wait can be posted within TIMEOUT + 2 steps of the clock and the driver (R184). -/
theorem exists_steps_to_result {s : State} (h : Inv s)
    (hwaits : s.drvState = .transmitting ∨ s.drvResult ≠ .noResult) :
    ∃ (steps : List Instr) (u : State), steps.length ≤ s.timeout + 2 ∧
      (∀ i ∈ steps, i = .tick ∨ i = .txComplete ∨ i = .txTimeout) ∧ execAll steps s = .next u ∧ PostsResult s u := by
  cases hdrv : s.drvState with
  | idle =>
    have hresult := hwaits.resolve_left (by simp [hdrv])
    exact ⟨[], s, by simp, by simp, rfl, ⟨hdrv, hresult, rfl, rfl, rfl, rfl, rfl⟩⟩
  | transmitting =>
    cases hdone : s.done with
    | true =>
      exact ⟨[.txComplete], _, by simp, by simp, execAll_cons.mpr ⟨_, exec_txComplete_enabled ⟨hdrv, hdone⟩, rfl⟩,
        ⟨rfl, nofun, rfl, rfl, rfl, rfl, rfl⟩⟩
    | false =>
      have hbound := h.timeout_lt
      have htimer := h.timer_lt
      obtain ⟨reply, hticks⟩ := execAll_tickTimes (k := s.timeout + 1 - s.timer) hdrv (by omega)
      have hlate : s.timeout < s.timer + (s.timeout + 1 - s.timer) := by omega
      refine ⟨stall s, _, ?_, ?_, execAll_append.mpr ⟨_, hticks, execAll_cons.mpr
        ⟨_, exec_txTimeout_enabled ⟨hdrv, hdone, hlate⟩, rfl⟩⟩, ⟨rfl, nofun, rfl, rfl, rfl, rfl, rfl⟩⟩
      · simp only [stall, tickTimes, List.length_append, List.length_replicate, List.length_singleton]
        omega
      · intro i hi
        obtain hi | hi := List.mem_append.mp hi
        · exact .inl (List.eq_of_mem_replicate hi)
        · exact .inr (.inr (List.mem_singleton.mp hi))

/-- Settles O49: the driver posts its result, if it has not yet, and TASK_FINISH reports it. -/
theorem startedFrameCanBeBroughtToItsAnswer : Obligations.StartedFrameCanBeBroughtToItsAnswer := by
  intro s hinv hform htask
  obtain ⟨steps, u, hlen, hagents, hrun, hposted⟩ :=
    exists_steps_to_result hinv (hform.waiting htask)
  have henabled := taskFinishEnabled_iff.mpr ⟨hposted.task.trans htask, hposted.idle, hposted.result⟩
  obtain ⟨v, more, hexec, hresp, hfree, hpending⟩ :=
    exec_taskFinish_answers henabled (hposted.attached.trans (hinv.taskAttached htask)) (hposted.cfg ▸ hinv.admitted)
  obtain ⟨r, hr, hreported⟩ := exists_reported hposted.result
  refine ⟨steps ++ [.taskFinish], v, r, more, ?_, ?_, execAll_append.mpr ⟨u, hrun, execAll_cons.mpr ⟨v, hexec, rfl⟩⟩, ?_, hr,
    hposted.pendValid ▸ hfree, hposted.pendValid ▸ hpending⟩
  · rw [List.length_append, List.length_singleton]
    omega
  · intro i hi
    obtain hi | hi := List.mem_append.mp hi
    · obtain htick | hcomplete | htimeout := hagents i hi
      · exact .inl htick
      · exact .inr (.inl hcomplete)
      · exact .inr (.inr (.inl htimeout))
    · exact .inr (.inr (.inr (List.mem_singleton.mp hi)))
  · rw [hresp, hposted.resp, hreported, List.append_assoc, List.singleton_append]

/-! ## One entry for every frame taken up (R268, R44 clause 9) -/

/-- A frame that an idle task takes up is answered at once or is awaited. -/
theorem startFrame_accounts {s t : State} {c : List Color} (h : startFrame s c = .ok t) (hidle : s.taskState = .idle) :
    s.resp <+: t.resp ∧ t.resp.length + awaited t = s.resp.length + 1 := by
  obtain ⟨f, rfl⟩ | ⟨-, -, -, -, -, rfl⟩ := startFrame_fails_or_starts h
  · exact ⟨List.prefix_append .., by simp [awaited, hidle]⟩
  · exact ⟨List.prefix_rfl, rfl⟩

/-- Each step adds to RESP and the awaited frame what the task takes up in it. -/
theorem exec_accounts {i : Instr} {s t : State} (hi : i ≠ .reset) (hexec : exec i s = .next t) :
    s.resp <+: t.resp ∧ t.resp.length + awaited t = s.resp.length + awaited s + takesUp s i := by
  obtain ⟨-, htask, -, -, -, -, -, -, -, -, -, -, -, -, hresp, -⟩ := onlyListedOperationsWriteAComponent i s t hexec
  cases i with
  | update c =>
    obtain ⟨-, -, ⟨hidle, hf⟩ | ⟨hwaits, rfl⟩⟩ := execUpdate_next hexec
    · rw [awaited_idle hidle, takesUp, if_pos hidle]
      exact startFrame_accounts (s := s.giveNothing) hf hidle
    · simp [awaited, takesUp, hwaits]
  | taskFinish =>
    obtain ⟨hwaits, -, r, -, ⟨hv, rfl⟩ | ⟨hv, hf⟩⟩ := execTaskFinish_next hexec
    · simp [awaited, takesUp, hwaits, hv]
    · obtain ⟨hprefix, hlength⟩ := startFrame_accounts hf rfl
      refine ⟨(List.prefix_append ..).trans hprefix, ?_⟩
      rw [hlength, awaited_transmitting hwaits, takesUp, if_pos hv]
      simp
  | reset => exact absurd rfl hi
  | _ =>
    have htask : t.taskState = s.taskState := by simpa [Instr.mnemonic] using htask
    have hresp : t.resp = s.resp := by simpa [Instr.mnemonic] using hresp
    rw [awaited, htask, hresp]
    exact ⟨List.prefix_rfl, rfl⟩

/-- Settles O51: the accounts of the steps add up along the run. -/
theorem everyFrameTakenUpGetsOneEntry : Obligations.EveryFrameTakenUpGetsOneEntry := by
  intro steps s t hsteps hrun
  induction steps generalizing s with
  | nil =>
    obtain rfl := Host.Outcome.next.inj hrun
    exact ⟨List.prefix_rfl, rfl⟩
  | cons i is ih =>
    obtain ⟨u, hi, his⟩ := execAll_cons.mp hrun
    obtain ⟨hprefix, hstep⟩ := exec_accounts (hsteps i List.mem_cons_self) hi
    obtain ⟨hprefix', hrest⟩ := ih u (fun j hj => hsteps j (List.mem_cons_of_mem i hj)) his
    refine ⟨hprefix.trans hprefix', ?_⟩
    rw [framesTakenUp_cons hi]
    omega

end Sys2Proof.Machine
end
